-- ==== Sys2Proof/Word.lean ====
section
/-! DEFINITION. The word and index types of the hub, and the record of four like items, one for each port. -/

namespace Sys2Proof

/-- A byte of a frame, a message or the memory. -/
abbrev Byte := BitVec 8

/-- A word of memory: 8 bytes, the unit of transfer (scope file, Terms). -/
abbrev Word := BitVec 64

/-- A port P0 to P3, named by its number (scope file, Conventions). -/
abbrev Port := Fin 4

/-- An index of the transaction table, 0–31 (R1). -/
abbrev Index := Fin 32

/-- A bank number: at most 8 banks (R31). -/
abbrev BankNo := Fin 8

/-- A slot of the lease table, 0–15 (R73). -/
abbrev LeaseId := Fin 16

/-- Four like items: one for each port, or one for each window of a port. -/
structure Quad (α : Type) where
  p0 : α
  p1 : α
  p2 : α
  p3 : α
  deriving DecidableEq, Repr

/-- The same item four times. -/
def Quad.all {α : Type} (a : α) : Quad α := ⟨a, a, a, a⟩

/-- The item of port `p`. -/
def Quad.get {α : Type} (q : Quad α) : Port → α
  | 0 => q.p0
  | 1 => q.p1
  | 2 => q.p2
  | 3 => q.p3

/-- The record with the item of port `p` replaced. -/
def Quad.set {α : Type} (q : Quad α) (p : Port) (a : α) : Quad α :=
  match p with
  | 0 => { q with p0 := a }
  | 1 => { q with p1 := a }
  | 2 => { q with p2 := a }
  | 3 => { q with p3 := a }

/-- The record with `f` applied to the item of port `p`. -/
def Quad.upd {α : Type} (q : Quad α) (p : Port) (f : α → α) : Quad α := q.set p (f (q.get p))

/-- The record with `f` applied to every item. -/
def Quad.map {α β : Type} (f : α → β) (q : Quad α) : Quad β := ⟨f q.p0, f q.p1, f q.p2, f q.p3⟩

/-- Two records combined port by port. -/
def Quad.zip {α β γ : Type} (f : α → β → γ) (q : Quad α) (r : Quad β) : Quad γ :=
  ⟨f q.p0 r.p0, f q.p1 r.p1, f q.p2 r.p2, f q.p3 r.p3⟩

/-- The items in order of port. -/
def Quad.toList {α : Type} (q : Quad α) : List α := [q.p0, q.p1, q.p2, q.p3]

end Sys2Proof
end

