-- ==== Sys2Proof/Syntax.lean ====
section
/-! DEFINITION. The commands of the hub: one constructor for each row of spec/opcode_table.json, in its order.
The table gives its rows no operands; each constructor's docstring says what its operands name. A command that the
message layer takes (`read` to `malformedMessage`) names only the port: the request's own operands are the bytes of
the message at the head of that port's inbound list (R156), laid out as R154 gives and read by
`Sys2Proof.Machine.parseRequest`. A command of a received frame names the port and the symbols that its line has brought
since the frame event before, up to the symbol at which this frame event takes place (R181);
`Sys2Proof.Machine.Receiver.hear` reads them. -/

namespace Sys2Proof

/-- A symbol of a link's line coding (R181). -/
inductive LineSymbol where
  | startMark
  | endMark
  | idle
  | data (b : Byte)
  deriving DecidableEq, Repr

/-- The commands. Log entry 1 says how a command whose event the hub does not take in the present state is treated,
log entry 2 how time passes. -/
inductive Instr where
  /-- READ (R5): the message layer of `p` takes the READ at the head of its inbound list. -/
  | read (p : Port)
  /-- WRITE (R5): the message layer of `p` takes the WRITE at the head of its inbound list. -/
  | write (p : Port)
  /-- FENCE (R18). -/
  | fence (p : Port)
  /-- LEASE_TAKE (R79). -/
  | leaseTake (p : Port)
  /-- LEASE_DROP (R91). -/
  | leaseDrop (p : Port)
  /-- LEASE_RENEW (R92). -/
  | leaseRenew (p : Port)
  /-- REST (R103). -/
  | rest (p : Port)
  /-- WAKE (R104). -/
  | wake (p : Port)
  /-- QUERY (R162). -/
  | query (p : Port)
  /-- CONFIG_SET (R121). -/
  | configSet (p : Port)
  /-- CONFIG_COMMIT (R123). -/
  | configCommit (p : Port)
  /-- WINDOW_SET (R140); `p` is the port whose message layer takes it, the named port is in the message. -/
  | windowSet (p : Port)
  /-- HANDOVER (R118). -/
  | handover (p : Port)
  /-- CLAIM (R117). -/
  | claim (p : Port)
  /-- HUB_RESET (R131). -/
  | hubReset (p : Port)
  /-- MALFORMED_MESSAGE (R156): the message at the head of the inbound list of `p` is no request of a known kind. -/
  | malformedMessage (p : Port)
  /-- PLACE_REPLY (R159): the arbiter of `p` places the head of its pending reply list. -/
  | placeReply (p : Port)
  /-- PLACE_NOTICE (R161): the arbiter of `p` places its first notice record. -/
  | placeNotice (p : Port)
  /-- MESSAGE_FRAME_RECEIVED (R170): the line of `p` ends a good MESSAGE frame. -/
  | messageFrameReceived (p : Port) (line : List LineSymbol)
  /-- ACK_RECEIVED (R173): the line of `p` ends a good ACK frame. -/
  | ackReceived (p : Port) (line : List LineSymbol)
  /-- NAK_RECEIVED (R174): the line of `p` ends a good NAK frame. -/
  | nakReceived (p : Port) (line : List LineSymbol)
  /-- ALIGN_RECEIVED (R168): the line of `p` ends a good ALIGN frame. -/
  | alignReceived (p : Port) (line : List LineSymbol)
  /-- READY_RECEIVED (R167): the line of `p` ends a good READY frame. -/
  | readyReceived (p : Port) (line : List LineSymbol)
  /-- CORRUPT_FRAME (R169, R181): the line of `p` gives a corrupt frame. -/
  | corruptFrame (p : Port) (line : List LineSymbol)
  /-- TRAINING_TIMER_EXPIRY (R167). -/
  | trainingTimerExpiry (p : Port)
  /-- ALIGN_SENT (R167). -/
  | alignSent (p : Port)
  /-- READY_SENT (R167). -/
  | readySent (p : Port)
  /-- ACK_SENT (R171). -/
  | ackSent (p : Port)
  /-- MESSAGE_FRAME_SENT (R172). -/
  | messageFrameSent (p : Port)
  /-- FRAME_RESENT (R174). -/
  | frameResent (p : Port)
  /-- REPLAY_TIMER_EXPIRY (R175). -/
  | replayTimerExpiry (p : Port)
  /-- ROOM_TIMER_EXPIRY (R175). -/
  | roomTimerExpiry (p : Port)
  /-- RESET_LINE_ASSERTED (R182). -/
  | resetLineAsserted
  /-- RESET_LINE_RELEASED (R182). -/
  | resetLineReleased
  /-- ROW_OPEN to bank `b` (R32). -/
  | rowOpen (b : BankNo)
  /-- ROW_CLOSE to bank `b` (R33). -/
  | rowClose (b : BankNo)
  /-- BANK_OPENED (R32): T_OPEN periods after its ROW_OPEN. -/
  | bankOpened (b : BankNo)
  /-- BANK_CLOSED (R33): T_CLOSE periods after its ROW_CLOSE. -/
  | bankClosed (b : BankNo)
  /-- OPEN_MARK_PASSED (R33). -/
  | openMarkPassed (b : BankNo)
  /-- WRITE_RECOVERY_MARK_PASSED (R33). -/
  | writeRecoveryMarkPassed (b : BankNo)
  /-- COL_READ for the next burst of entry `i` (R48). -/
  | colRead (i : Index)
  /-- COL_WRITE for the next burst of entry `i` (R48). -/
  | colWrite (i : Index)
  /-- COL_READ_COMPLETE (R147). `flips` is what has gone wrong in the memory devices: for each word of the burst, in
  column order, the bits among the 72 that have flipped since the word was last written or read (bits 63..0 the data
  bits, bits 71..64 the check code; a word beyond the list has none). -/
  | colReadComplete (flips : List (BitVec 72))
  /-- COL_WRITE_COMPLETE (R34). -/
  | colWriteComplete
  /-- ALL_CLOSE (R35). -/
  | allClose
  /-- ALL_CLOSE_COMPLETE (R35). -/
  | allCloseComplete
  /-- MODE_LOAD (R128). -/
  | modeLoad
  /-- MODE_LOAD_COMPLETE (R128). -/
  | modeLoadComplete
  /-- UPKEEP (R35). -/
  | upkeep
  /-- UPKEEP_COMPLETE (R60). -/
  | upkeepComplete
  /-- RETAIN_ENTER (R107). -/
  | retainEnter
  /-- RETAIN_EXIT (R109). -/
  | retainExit
  /-- RETAIN_EXIT_COMPLETE (R110). -/
  | retainExitComplete
  /-- INTERVAL_TIMER_EXPIRY (R59). -/
  | intervalTimerExpiry
  /-- LEASE_EXPIRY of the lease in slot `id` (R93). -/
  | leaseExpiry (id : LeaseId)
  /-- WAIT_DEADLINE of the ungranted LEASE_TAKE of port `p` that carries `tag` (R86). -/
  | waitDeadline (p : Port) (tag : Byte)
  /-- SETTLE_END (R127). -/
  | settleEnd
  /-- COMMIT_COPY (R125). -/
  | commitCopy
  /-- RESET_EVENT (R132). -/
  | resetEvent
  deriving DecidableEq, Repr

end Sys2Proof
end

