-- ==== Sys2Proof/Decode.lean ====
section
/-! DEFINITION. The command that a word of the table's bits spells. No row of spec/opcode_table.json gives bits (its
rows carry no "fixed" and empty "fields"; spec/98_reader.md counts 59 rows without them), so no word spells a
command. The hub's commands reach it as bytes of frames and messages, which `Machine.parseFrame` and
`Machine.parseRequest` read. -/

namespace Sys2Proof

/-- The command that the `nbits` bits of `w` spell by the opcode table: none, since no row of the table gives bits. -/
def decodeTableWord (_nbits _w : Nat) : Option Instr := none

end Sys2Proof
end

