-- ==== Sys2Proof/Config.lean ====
section
/-! DEFINITION. What the spec leaves open, as constants without a body: nothing can be proved of their values.
Each is named in the assumption log. -/

namespace Sys2Proof

/-- FREE VALUE (log entry 3). What byte `addr` of the memory holds while the hub has not written it: "the memory's
contents are undefined" after power-up (R122), after the reset event (R132) and from the copy of a commit that
changes the geometry (R126). The first argument counts those events, so that the contents after one of them say
nothing about the contents after the next. -/
opaque Config.unwrittenByte (epoch addr : Nat) : Byte

/-- FREE VALUE (log entry 3). What check code the devices hold beside word `index` (the word at physical address
`index` × 8) while the hub has not written it: "a word that the hub has not written since is read with whatever code
the devices hold beside it" (R150). -/
opaque Config.unwrittenCode (epoch index : Nat) : Byte

/-- FREE VALUE (log entry 4). The column of data bit `j` in the check code. R146 and R147 say what the code can do
(every one-bit error among the 72 bits is located, every two-bit error is found) and not which code it is.
`Sys2Proof.Machine.CheckCode.columns` uses these columns where they have those two properties. -/
opaque Config.checkColumn (j : Nat) : Byte

end Sys2Proof
end

