-- ==== Sys2Proof/Machine/CheckCode.lean ====
section
/-! DEFINITION. The check code of a word and the check of a word read (R146, R147). The code is linear: each data bit
has a column of 8 code bits, the code is the sum of the columns of the data bits that are set, and each code bit is a
column of its own. PRESUMED (log entry 4): the spec says what the check finds, not that the code is linear. -/

namespace Sys2Proof.Machine.CheckCode

/-- The columns of the 8 code bits. -/
def codeBitColumns : List Byte := [1, 2, 4, 8, 16, 32, 64, 128]

/-- 64 columns, no two of the 72 alike, none zero, and no two that add up to a third: with these a one-bit error among
the 72 bits is told from every other one, and a two-bit error looks like no one-bit error and like no clean word. -/
def locatesAndDetects (columns : List Byte) : Bool :=
  let all := columns ++ codeBitColumns
  decide (columns.length = 64) && decide all.Nodup && all.all (fun a => a != 0) &&
    all.all (fun a => all.all (fun b => (a ^^^ b) == 0 || !(all.contains (a ^^^ b))))

/-- 64 columns of odd weight 3 or 5. They stand in for the free columns only where those lack the two properties that
R147 gives the check. -/
def oddColumns : List Byte :=
  [0x07, 0x0B, 0x0D, 0x0E, 0x13, 0x15, 0x16, 0x19, 0x1A, 0x1C, 0x23, 0x25, 0x26, 0x29, 0x2A, 0x2C] ++
  [0x31, 0x32, 0x34, 0x38, 0x43, 0x45, 0x46, 0x49, 0x4A, 0x4C, 0x51, 0x52, 0x54, 0x58, 0x61, 0x62] ++
  [0x64, 0x68, 0x70, 0x83, 0x85, 0x86, 0x89, 0x8A, 0x8C, 0x91, 0x92, 0x94, 0x98, 0xA1, 0xA2, 0xA4] ++
  [0xA8, 0xB0, 0xC1, 0xC2, 0xC4, 0xC8, 0xD0, 0xE0, 0x1F, 0x2F, 0x37, 0x3B, 0x3D, 0x3E, 0x4F, 0x57]

/-- The columns of the data bits: the free columns of `Config`, held to the properties of R147. -/
def columns : List Byte :=
  let free := (List.range 64).map Config.checkColumn
  if locatesAndDetects free then free else oddColumns

/-- The sum of the columns of the data bits, from bit `j` on, that are set. -/
def sumFrom (w : Word) (j : Nat) : List Byte → Byte
  | [] => 0
  | c :: cs => (if w.getLsbD j then c else 0) ^^^ sumFrom w (j + 1) cs

/-- The check code of a word under given columns: computed from its 64 data bits alone (R146). -/
def codeWith (columns : List Byte) (w : Word) : Byte := sumFrom w 0 columns

/-- The check code of a word (R146). -/
def code (w : Word) : Byte := codeWith columns w

/-- The outcome of a check (R147). -/
inductive Outcome where
  | clean
  | corrected
  | damaged
  deriving DecidableEq, Repr

/-- The check of a word read with a stored code: the outcome, and the word that goes into the buffer (R147). -/
def checkWith (columns : List Byte) (w : Word) (stored : Byte) : Outcome × Word :=
  let difference := codeWith columns w ^^^ stored
  if difference = 0 then (.clean, w)
  else if codeBitColumns.contains difference then (.corrected, w)
  else match columns.findIdx? (fun c => c == difference) with
    | some j => (.corrected, w ^^^ BitVec.twoPow 64 j)
    | none => (.damaged, w)

/-- The check of a word read (R147). -/
def check (w : Word) (stored : Byte) : Outcome × Word := checkWith columns w stored

end Sys2Proof.Machine.CheckCode
end

