-- ==== Sys2Proof/Machine/State.lean ====
section
/-! DEFINITION. The state of the hub as plain data, its value after power-up, and the reasons a step can stop.
INVENTORY.md lists each item with the rule that names it and its reset value. Every timer is held as the time, on the
clock `Hub.now`, at which it runs out (log entry 2). -/

namespace Sys2Proof.Machine

/-! ### Names (R1, R31, R61, R73, R120, R122, R155, R166) -/

/-- READ or WRITE. -/
inductive Access where
  | read
  | write
  deriving DecidableEq, Repr

/-- The state of an occupied entry (R1). -/
inductive Phase where
  | held
  | queued
  | active
  | done
  deriving DecidableEq, Repr

/-- The data status of an entry (R148). -/
inductive DataStatus where
  | ok
  | corrected
  | damaged
  deriving DecidableEq, Repr

/-- What the freeing of an entry with the aborting mark still owes (R21–R25): `answered` an ABORTED reply (a forced
commit), `silent` the removal of its tag and no reply (a HUB_RESET), `torn` nothing (its port has been torn down). -/
inductive AbortKind where
  | answered
  | silent
  | torn
  deriving DecidableEq, Repr

/-- The state of a bank (R31). -/
inductive BankState where
  | closed
  | opening
  | opened
  | closing
  deriving DecidableEq, Repr

/-- The urgency level (R61). -/
inductive Urgency where
  | clear
  | lax
  | due
  | urgent
  | critical
  deriving DecidableEq, Repr

/-- The mode of a lease (R73). -/
inductive LeaseMode where
  | sole
  | guarded
  deriving DecidableEq, Repr

/-- The state of the channel (scope file, The channel). -/
inductive Channel where
  | unready
  | bringup
  | serving
  | entering
  | resting
  | leaving
  deriving DecidableEq, Repr

/-- ROW_POLICY (R120). -/
inductive RowPolicy where
  | keepOpen
  | closeAfter
  deriving DecidableEq, Repr

/-- CONFLICT_ACTION (R120). -/
inductive ConflictAction where
  | stall
  | reject
  deriving DecidableEq, Repr

/-- The status of a reply (R155). -/
inductive Status where
  | ok
  | corrected
  | damaged
  | malformed
  | tagInUse
  | notReady
  | noWindow
  | span
  | full
  | locked
  | aborted
  | conflict
  | timeout
  | noLease
  | leaseFull
  | overlap
  | noRole
  | badParam
  | busy
  deriving DecidableEq, Repr

/-- The kind of a notice (R161). -/
inductive NoticeKind where
  | channelState
  | controlChanged
  | leaseLapsed
  | upkeepOverrun
  deriving DecidableEq, Repr

/-- The state of a link (R166). -/
inductive LinkState where
  | down
  | training
  | up
  deriving DecidableEq, Repr

/-- The step of training (R167). -/
inductive TrainingStep where
  | align
  | ready
  deriving DecidableEq, Repr

/-- The step of LEAVING (chapter 5, state table). -/
inductive LeavingStep where
  | exitWait
  | exitUpkeep
  deriving DecidableEq, Repr

/-- The phase of bring-up (R127, R128). -/
inductive BringupPhase where
  | settle
  | close
  | mode
  | burst
  deriving DecidableEq, Repr

/-- A channel-wide command that takes time (R35); RETAIN_ENTER takes none. -/
inductive ChannelCommand where
  | allClose
  | modeLoad
  | upkeep
  | retainExit
  deriving DecidableEq, Repr

/-- A command on the DRAM channel's command lines (R32–R35). -/
inductive DramCommand where
  | rowOpen (bank row : Nat)
  | rowClose (bank : Nat)
  | colRead (bank row column words : Nat)
  | colWrite (bank row column words : Nat)
  | allClose
  | modeLoad (readLatency : Nat)
  | upkeep
  | retainEnter
  | retainExit
  deriving DecidableEq, Repr

/-! ### Transaction table (R1) -/

/-- The hold reasons of an entry (R1), with the fields that are present exactly with one of them: ORDER is among them
when the predecessor is present, FENCE when the fences-ahead count is above 0. -/
structure Holds where
  /-- The predecessor, present exactly when ORDER is a hold reason. -/
  order : Option Index
  /-- The fences-ahead count, above 0 exactly when FENCE is a hold reason. -/
  fencesAhead : Nat
  /-- LEASE is a hold reason. -/
  lease : Bool
  /-- CHANNEL is a hold reason. -/
  channel : Bool
  deriving DecidableEq, Repr

/-- An occupied entry (R1, R145). -/
structure Entry where
  index : Index
  port : Port
  tag : Byte
  kind : Access
  /-- The physical byte address of the first word. -/
  addr : Nat
  words : Nat
  wordsDone : Nat
  bank : Nat
  row : Nat
  phase : Phase
  holds : Holds
  passed : Nat
  /-- The aborting mark, with what the freeing owes. -/
  aborting : Option AbortKind
  status : DataStatus
  flagged : Nat
  /-- The contents of the meaningful places of the data buffer (R145), in order of place from the place of the
  transaction's first word: all of them for a WRITE, those of the words read so far for a READ. The other places are
  undefined and never read. -/
  buffer : List Word
  deriving DecidableEq, Repr

/-! ### Scheduler and bank table (R31, chapter 2) -/

/-- A bank record (R31). -/
structure Bank where
  state : BankState
  row : Option Nat
  openedFor : Option Index
  openMark : Option Nat
  /-- The write-recovery mark; absent when passed. -/
  writeMark : Option Nat
  closeRequested : Bool
  /-- When the row command in progress takes effect: present in OPENING and CLOSING (R31's table of bank states). -/
  doneAt : Option Nat
  deriving DecidableEq, Repr

/-- The burst on the data lane (R34). -/
structure Burst where
  entry : Index
  kind : Access
  bank : Nat
  /-- The physical byte address of the burst's first word. -/
  addr : Nat
  words : Nat
  doneAt : Nat
  /-- The words of a COL_WRITE, taken from the entry's buffer at its issue (R146). -/
  data : List Word
  deriving DecidableEq, Repr

/-- A channel-wide command in flight (R35). -/
structure Flight where
  command : ChannelCommand
  doneAt : Nat
  deriving DecidableEq, Repr

/-- The demands and restraints a unit presents to the scheduler (R35, R50, R51), each presented or not. -/
structure Items where
  closeAll : Bool
  upkeep : Bool
  opensWithheld : Bool
  startsWithheld : Bool
  stop : Bool
  retainEnter : Bool
  retainExit : Bool
  allClose : Bool
  modeLoad : Bool
  deriving DecidableEq, Repr

/-- Nothing presented. -/
def Items.none : Items := ⟨false, false, false, false, false, false, false, false, false⟩

/-- The scheduler and its bank table (chapter 2). -/
structure Scheduler where
  banks : List Bank
  /-- The last bank served by the row command lane (R36). -/
  lastServed : Nat
  /-- The time from which the row command lane is free (R36). -/
  laneFreeAt : Nat
  /-- The burst in flight on the data lane; absent when the lane is free (R46). -/
  burst : Option Burst
  /-- The channel-wide command in flight (R35). -/
  flight : Option Flight
  hits : Nat
  misses : Nat
  deriving DecidableEq, Repr

/-! ### Upkeep unit (chapter 3) -/

/-- The upkeep unit (chapter 3, state table). -/
structure UpkeepUnit where
  /-- When the interval timer next expires; absent while it is stopped (R58). -/
  timer : Option Nat
  debt : Nat
  level : Urgency
  overruns : Nat
  completed : Nat
  items : Items
  deriving DecidableEq, Repr

/-! ### Lease unit (chapter 4) -/

/-- The fields of a lease that its state decides (R73). -/
inductive LeasePhase where
  | granting (duration deadline : Nat) (drain : List Index) (tag : Byte)
  | granted (expiry : Nat)
  deriving DecidableEq, Repr

/-- A lease record (R73). -/
structure Lease where
  owner : Port
  base : Nat
  length : Nat
  mode : LeaseMode
  phase : LeasePhase
  deriving DecidableEq, Repr

/-- A slot of the lease table (R73): free when it holds no lease; its generation is kept in every state. -/
structure LeaseSlot where
  id : LeaseId
  generation : Byte
  lease : Option Lease
  deriving DecidableEq, Repr

/-- A waiting request (R81). -/
structure Waiting where
  port : Port
  tag : Byte
  base : Nat
  length : Nat
  mode : LeaseMode
  duration : Nat
  deadline : Nat
  deriving DecidableEq, Repr

/-- The lease unit (chapter 4, state table). -/
structure LeaseUnit where
  slots : List LeaseSlot
  waits : List Waiting
  grants : Nat
  lapses : Nat
  deriving DecidableEq, Repr

/-- A lease handle (R75). -/
structure Handle where
  id : LeaseId
  generation : Byte
  deriving DecidableEq, Repr

/-! ### Rest unit (chapter 5) -/

/-- The rest unit (chapter 5, state table). -/
structure RestUnit where
  votes : Quad Bool
  abandoning : Bool
  leaving : Option LeavingStep
  /-- The deferred WAKE list: port and tag, in order of taking. -/
  wakes : List (Port × Byte)
  items : Items
  deriving DecidableEq, Repr

/-! ### Configuration unit (chapter 6) -/

/-- A parameter set (R120). -/
structure Params where
  banks : Nat
  rowBits : Nat
  page : Nat
  tOpen : Nat
  tClose : Nat
  tHoldMin : Nat
  tWriteRecover : Nat
  readLatency : Nat
  tUpkeep : Nat
  upkeepInterval : Nat
  retainExit : Nat
  settleCount : Nat
  bringupUpkeeps : Nat
  rowPolicy : RowPolicy
  bypassLimit : Nat
  quota : Quad Nat
  conflictAction : Quad ConflictAction
  deriving DecidableEq, Repr

/-- The defaults (R120). -/
def Params.default : Params where
  banks := 8
  rowBits := 14
  page := 2048
  tOpen := 4
  tClose := 4
  tHoldMin := 10
  tWriteRecover := 4
  readLatency := 3
  tUpkeep := 40
  upkeepInterval := 1560
  retainExit := 100
  settleCount := 16
  bringupUpkeeps := 4
  rowPolicy := .keepOpen
  bypassLimit := 4
  quota := Quad.all 8
  conflictAction := Quad.all .stall

/-- What a pending change is (chapter 6, state table). -/
inductive ChangeKind where
  | commit (force geometry : Bool)
  | hubReset
  deriving DecidableEq, Repr

/-- A pending change: its request's port and tag, and whether that port has been torn down since the taking. -/
structure Change where
  kind : ChangeKind
  port : Port
  tag : Byte
  torn : Bool
  deriving DecidableEq, Repr

/-- The bring-up record (chapter 6, state table). -/
structure Bringup where
  phase : BringupPhase
  /-- The time at which SETTLE ends. -/
  settleEnd : Nat
  upkeepsLeft : Nat
  port : Port
  tag : Byte
  torn : Bool
  geometry : Bool
  deriving DecidableEq, Repr

/-- The configuration unit (chapter 6, state table). The sequence that brings the memory up presents items of its
own (R127, R128). -/
structure ConfigUnit where
  holder : Option Port
  staged : Params
  committed : Params
  change : Option Change
  bringup : Option Bringup
  items : Items
  bringupItems : Items
  deriving DecidableEq, Repr

/-! ### Window table (chapter 7) -/

/-- An enabled window record (R136). -/
structure Window where
  base : Nat
  size : Nat
  target : Nat
  read : Bool
  write : Bool
  deriving DecidableEq, Repr

/-- The power-up windows of a port (R136). -/
def Window.powerUp : Quad (Option Window) :=
  ⟨some ⟨0, 0x10000000, 0, true, true⟩, none, none, none⟩

/-! ### Check-code unit, and the memory behind the channel (chapter 8) -/

/-- The damage record (R149). -/
structure DamageRecord where
  addr : Nat
  port : Port
  deriving DecidableEq, Repr

/-- The hub-wide counts of the check-code unit (R149). -/
structure CheckUnit where
  corrected : Nat
  damaged : Nat
  damage : Option DamageRecord
  deriving DecidableEq, Repr

/-- The memory devices. `data` lists the bytes the hub has written, by physical byte address; `codes` the check codes
it has written, by word index. Both are in canonical form (`Mem.wf`): addresses strictly rising. An unlisted cell
has not been written and reads as a free value (log entry 3). -/
structure Dram where
  data : List Host.Cell
  codes : List Host.Cell
  /-- The model's own: how often the contents have become undefined (log entry 3). -/
  epoch : Nat
  /-- The memory is in retention (R125). -/
  retention : Bool
  /-- The READ_LATENCY the devices hold, given to them by MODE_LOAD (R35, R128). The spec gives it no value before the first
  one: 0 is the model's choice (log entry 17). -/
  readLatency : Nat
  /-- The model's own record of the command lines: the commands issued since the release of the reset line, oldest
  first (log entry 8). -/
  issued : List DramCommand
  deriving DecidableEq, Repr

/-! ### Message layers (chapter 9) -/

/-- A reply (R155). -/
structure Reply where
  tag : Byte
  status : Status
  detail : Nat
  body : List Byte
  deriving DecidableEq, Repr

/-- A notice record (R161). -/
structure NoticeRecord where
  count : Nat
  detail : Nat
  handles : List Handle
  deriving DecidableEq, Repr

/-- The notice set: a record or none for each kind (R161). -/
structure NoticeSet where
  channelState : Option NoticeRecord
  controlChanged : Option NoticeRecord
  leaseLapsed : Option NoticeRecord
  upkeepOverrun : Option NoticeRecord
  deriving DecidableEq, Repr

/-- The empty notice set. -/
def NoticeSet.empty : NoticeSet := ⟨none, none, none, none⟩

/-- A message on an outbound list (R159). -/
inductive OutMessage where
  | reply (r : Reply)
  | notice (kind : NoticeKind) (record : NoticeRecord)
  deriving DecidableEq, Repr

/-- A pending reply (R158), by the kind of its owner. The reply of a DONE entry stays with the entry. -/
inductive PendingReply where
  /-- The reply of a DONE entry. -/
  | entry (tag : Byte) (index : Index)
  /-- The OK of a complete fence. -/
  | fence (tag : Byte)
  /-- The ABORTED of an entry or a fence. -/
  | aborted (tag : Byte) (detail : Nat)
  /-- The OK of a LEASE_TAKE, with its handle and duration. -/
  | leaseGrant (tag : Byte) (handle : Handle) (duration : Nat)
  /-- A TIMEOUT or an ABORTED of a LEASE_TAKE. -/
  | leaseEnd (tag : Byte) (status : Status) (detail : Nat)
  /-- The OK of a deferred WAKE. -/
  | wake (tag : Byte)
  /-- The OK of a CONFIG_COMMIT. -/
  | commit (tag : Byte) (detail : Nat)
  /-- The OK of a HUB_RESET. -/
  | hubReset (tag : Byte)
  deriving DecidableEq, Repr

/-- A fence on the fence list (R18): complete when its watch set is empty. -/
structure Fence where
  tag : Byte
  watch : List Index
  deriving DecidableEq, Repr

/-- The message layer of a port (chapter 9, state table). -/
structure MessageLayer where
  tags : List Byte
  replies : List PendingReply
  notices : NoticeSet
  fences : List Fence
  taken : Nat
  completed : Nat
  refusals : Nat
  deriving DecidableEq, Repr

/-! ### Link ports (chapter 10) -/

/-- Where the receiving side of a port stands in its line coding (R181). -/
inductive Receiver where
  /-- Between frames. -/
  | between
  /-- Bytes have come without a start mark before them. -/
  | stray
  /-- In a frame, after its start mark, with the bytes that have come. -/
  | within (bytes : List Byte)
  /-- After a frame that ran on: the port waits for the next start mark. -/
  | waiting
  deriving DecidableEq, Repr

/-- A frame on the replay list (R172). -/
structure SentFrame where
  seq : Byte
  message : OutMessage
  deriving DecidableEq, Repr

/-- A link port (chapter 10, state table). -/
structure Link where
  state : LinkState
  step : Option TrainingStep
  farReady : Bool
  /-- The port has sent a READY in this training, which R167's condition for UP refers to. -/
  readySent : Bool
  trainingTimer : Option Nat
  expected : Byte
  corrupt : Nat
  nakMark : Bool
  /-- The time by which an ACK must be sent; absent when none is owed (R171). -/
  ackOwed : Option Nat
  inbound : List (List Byte)
  sendSeq : Byte
  farRoom : Nat
  replay : List SentFrame
  /-- The sequence of the next frame to be sent again. -/
  resend : Option Byte
  fullWait : Bool
  replayTimer : Option Nat
  roomTimer : Option Nat
  replays : Nat
  outbound : List OutMessage
  /-- Where the receiving side stands in the line coding (R181, log entry 25). -/
  receiver : Receiver
  /-- The model's own record of the outgoing pair: the frames sent since the release of the reset line, oldest first
  (log entry 8). -/
  wire : List (List Byte)
  deriving DecidableEq, Repr

/-! ### The hub and the machine's state -/

/-- The hub: every item of every block. -/
structure Hub where
  /-- The reset line is held low (R182). -/
  resetLow : Bool
  /-- Memory clock periods since the release of the reset line; the microsecond timers and the hub timer are counted
  from the same source (R181, log entry 2). -/
  now : Nat
  channel : Channel
  links : Quad Link
  messages : Quad MessageLayer
  windows : Quad (Quad (Option Window))
  /-- The occupied entries, in the order of the age list (R3). -/
  table : List Entry
  scheduler : Scheduler
  upkeep : UpkeepUnit
  leases : LeaseUnit
  rest : RestUnit
  config : ConfigUnit
  check : CheckUnit
  dram : Dram
  deriving DecidableEq, Repr

/-- The state of the machine: the hub, and the commands that wait, first in, first out. -/
structure State where
  hub : Hub
  pending : List Instr
  deriving DecidableEq, Repr

/-! ### Values after power-up -/

/-- A CLOSED bank record as ALL_CLOSE and power-up leave it (R35, R57). -/
def Bank.closedRecord : Bank := ⟨.closed, none, none, none, none, false, none⟩

/-- The scheduler after power-up (R57). -/
def Scheduler.powerUp : Scheduler := ⟨List.replicate 8 Bank.closedRecord, 7, 0, none, none, 0, 0⟩

/-- The upkeep unit after power-up (R72). -/
def UpkeepUnit.powerUp : UpkeepUnit := ⟨none, 0, .clear, 0, 0, Items.none⟩

/-- The free slots of the lease table, every generation 0 (R101). -/
def LeaseSlot.allFree : List LeaseSlot :=
  [0, 1, 2, 3, 4, 5, 6, 7, 8, 9, 10, 11, 12, 13, 14, 15].map (fun i => ⟨i, 0, none⟩)

/-- The lease unit after power-up (R101). -/
def LeaseUnit.powerUp : LeaseUnit := ⟨LeaseSlot.allFree, [], 0, 0⟩

/-- The rest unit after power-up (R115). -/
def RestUnit.powerUp : RestUnit := ⟨Quad.all false, false, none, [], Items.none⟩

/-- The configuration unit after power-up (R135). -/
def ConfigUnit.powerUp : ConfigUnit :=
  ⟨none, Params.default, Params.default, none, none, Items.none, Items.none⟩

/-- The message layer after power-up (R28, R165). -/
def MessageLayer.powerUp : MessageLayer := ⟨[], [], NoticeSet.empty, [], 0, 0, 0⟩

/-- A link while the reset line is low: DOWN, with nothing held (R166, R182). -/
def Link.down : Link where
  state := .down
  step := none
  farReady := false
  readySent := false
  trainingTimer := none
  expected := 0
  corrupt := 0
  nakMark := false
  ackOwed := none
  inbound := []
  sendSeq := 0
  farRoom := 0
  replay := []
  resend := none
  fullWait := false
  replayTimer := none
  roomTimer := none
  replays := 0
  outbound := []
  receiver := .between
  wire := []

/-- A link after power-up: DOWN was entered and TRAINING began at once, in the ALIGN step, with the 2 ms training
timer (800,000 periods) loaded (R166, R167, R180). -/
def Link.powerUp : Link :=
  { Link.down with state := .training, step := some .align, trainingTimer := some 800000 }

/-- The hub after power-up or the release of the reset line; `epoch` counts the times the memory's contents have
become undefined. -/
def Hub.powerUp (epoch : Nat) : Hub where
  resetLow := false
  now := 0
  channel := .unready
  links := Quad.all Link.powerUp
  messages := Quad.all MessageLayer.powerUp
  windows := Quad.all Window.powerUp
  table := []
  scheduler := Scheduler.powerUp
  upkeep := UpkeepUnit.powerUp
  leases := LeaseUnit.powerUp
  rest := RestUnit.powerUp
  config := ConfigUnit.powerUp
  check := ⟨0, 0, none⟩
  dram := ⟨[], [], epoch, false, 0, []⟩

/-- The hub while the reset line is low: every item is lost, nothing is held or sent, and the links are DOWN (R182). -/
def Hub.inReset (epoch : Nat) : Hub :=
  { Hub.powerUp epoch with resetLow := true, links := Quad.all Link.down }

/-- The machine right after reset: the reset line has been released, and no command waits. -/
def State.reset : State := ⟨Hub.powerUp 0, []⟩

/-- The reasons a step can stop with a fault. -/
inductive Fault where
  /-- Raised by COL_READ and COL_WRITE when the burst would reach a word at or above the memory size, an address the
  spec says does not exist (R29: "A physical address is always below the memory size"). Safe: the machine stops, and
  no state that a run reaches raises it (R142). -/
  | addressOutsideMemory
  deriving DecidableEq, Repr

/-- The reasons a step can refuse a command. -/
inductive Refusal where
  /-- Raised by an arm of `exec` whose command has no meaning yet. Safe. No arm raises it: every command is modelled. -/
  | notModelled (mnemonic : String)
  deriving DecidableEq, Repr

end Sys2Proof.Machine
end

