-- ==== Sys2Proof/Machine/Frames.lean ====
section
/-! DEFINITION. Little-endian numbers, the CRC-16, the frame layout, the frame check and the line coding (R153, R169,
R181). -/

namespace Sys2Proof.Machine

/-- A number of `k` bytes, least significant byte first (R153). -/
def leBytes : Nat → Nat → List Byte
  | 0, _ => []
  | k + 1, n => BitVec.ofNat 8 n :: leBytes k (n / 256)

/-- The number that bytes spell, least significant byte first (R153). -/
def leNat : List Byte → Nat
  | [] => 0
  | b :: bs => b.toNat + 256 * leNat bs

/-- One bit into the CRC register: generator x^16 + x^12 + x^5 + 1 (R153). -/
def crcBit (r : BitVec 16) (b : Bool) : BitVec 16 :=
  if r.msb != b then (r <<< 1) ^^^ 0x1021#16 else r <<< 1

/-- One byte into the CRC register, most significant bit first (R153). -/
def crcByte (r : BitVec 16) (x : Byte) : BitVec 16 :=
  [7, 6, 5, 4, 3, 2, 1, 0].foldl (fun r i => crcBit r (x.getLsbD i)) r

/-- The CRC-16 over bytes: the register starts at 0xFFFF and is taken as it stands (R153). -/
def crc16 (bytes : List Byte) : BitVec 16 := bytes.foldl crcByte 0xFFFF#16

/-- The bytes of a frame: type, sequence, payload length, payload, CRC (R153). DEDUCED (log entry 9): the CRC's two
bytes, a multi-byte number, go least significant byte first like every other. -/
def frameBytes (type seq : Byte) (payload : List Byte) : List Byte :=
  let head := type :: seq :: (leBytes 2 payload.length ++ payload)
  head ++ leBytes 2 (crc16 head).toNat

/-- The reasons of a NAK (R153). -/
inductive NakReason where
  | corrupt
  | order
  | full
  deriving DecidableEq, Repr

/-- The code of a NAK reason: 1 CORRUPT, 2 ORDER, 3 FULL (R153). -/
def NakReason.code : NakReason → Byte
  | .corrupt => 1
  | .order => 2
  | .full => 3

/-- What a good frame says (R153, R169). -/
inductive FrameBody where
  | message (seq : Byte) (payload : List Byte)
  | ack (seq : Byte) (room : Nat)
  | nak (seq : Byte) (reason : NakReason)
  | align
  | ready (room : Nat)
  deriving DecidableEq, Repr

/-- The bytes of the frame that says `f`; the sequence byte is 0 in all but MESSAGE frames (R153). -/
def FrameBody.bytes : FrameBody → List Byte
  | .message seq payload => frameBytes 1 seq payload
  | .ack seq room => frameBytes 2 0 [seq, BitVec.ofNat 8 room]
  | .nak seq reason => frameBytes 3 0 [seq, reason.code]
  | .align => frameBytes 4 0 []
  | .ready room => frameBytes 5 0 [BitVec.ofNat 8 room]

/-- What a frame's type, sequence byte and payload say, if they pass the checks of R169 on them: the type is 0x01 to
0x05, the payload length is the type's, a room is 0–4, a NAK reason is 1–3. -/
def frameBody (type seq : Byte) (payload : List Byte) : Option FrameBody :=
  match type.toNat, payload with
  | 1, payload => if payload.length ≤ 272 then some (.message seq payload) else none
  | 2, [n, room] => if room.toNat ≤ 4 then some (.ack n room.toNat) else none
  | 3, [e, reason] =>
    match reason.toNat with
    | 1 => some (.nak e .corrupt)
    | 2 => some (.nak e .order)
    | 3 => some (.nak e .full)
    | _ => none
  | 4, [] => some .align
  | 5, [room] => if room.toNat ≤ 4 then some (.ready room.toNat) else none
  | _, _ => none

/-- The frame check of R169: what the frame says if it is good, nothing if it is corrupt. -/
def parseFrame (bytes : List Byte) : Option FrameBody :=
  match bytes with
  | type :: seq :: l0 :: l1 :: rest =>
    let n := leNat [l0, l1]
    let payload := rest.take n
    if rest.length = n + 2 ∧
        rest.drop n = leBytes 2 (crc16 (type :: seq :: l0 :: l1 :: payload)).toNat then
      frameBody type seq payload
    else none
  | _ => none

/-! ### The line coding (R181) -/

/-- What a line hands to its port at a frame event (R181). -/
inductive LineFrame where
  /-- The bytes between a start mark and the end mark after it. -/
  | delimited (bytes : List Byte)
  /-- A start mark came before the end mark of the frame in progress. -/
  | cutShort
  /-- Bytes came without a start mark before them; they count as one corrupt frame at the next start mark. -/
  | stray
  /-- A frame ran beyond the longest frame without an end mark. -/
  | overlong
  deriving DecidableEq, Repr

/-- The bytes of the longest frame: 4 + 272 + 2 (R181). -/
def longestFrame : Nat := 278

/-- What one symbol does to the receiving side, and the frame event it makes, if any (R181). Idle symbols are no part of a
frame wherever they stand, and an end mark with no frame in progress ends nothing (log entry 25). -/
def Receiver.next (r : Receiver) (x : LineSymbol) : Option LineFrame × Receiver :=
  match r, x with
  | r, .idle => (none, r)
  | .between, .startMark => (none, .within [])
  | .between, .endMark => (none, .between)
  | .between, .data _ => (none, .stray)
  | .stray, .startMark => (some .stray, .within [])
  | .stray, .endMark => (none, .stray)
  | .stray, .data _ => (none, .stray)
  | .within _, .startMark => (some .cutShort, .within [])
  | .within bytes, .endMark => (some (.delimited bytes), .between)
  | .within bytes, .data b =>
    if bytes.length < longestFrame then (none, .within (bytes ++ [b])) else (some .overlong, .waiting)
  | .waiting, .startMark => (none, .within [])
  | .waiting, .endMark => (none, .waiting)
  | .waiting, .data _ => (none, .waiting)

/-- What the receiving side hears in symbols whose last one, and none before it, makes a frame event: the event, and where
the receiving side then stands. Symbols of any other form are not those up to one frame event. -/
def Receiver.hear (r : Receiver) : List LineSymbol → Option (LineFrame × Receiver)
  | [] => none
  | [x] =>
    match r.next x with
    | (some f, t) => some (f, t)
    | (none, _) => none
  | x :: y :: rest =>
    match r.next x with
    | (some _, _) => none
    | (none, t) => t.hear (y :: rest)

/-- The symbols in which a frame goes on the line: from its start mark to its end mark (R181). -/
def lineOf (bytes : List Byte) : List LineSymbol := .startMark :: (bytes.map LineSymbol.data ++ [.endMark])

/-- What the line hands over is a corrupt frame: a frame cut short, stray bytes and a frame that runs on are corrupt
(R181), and so is a whole frame that fails the frame check (R169). -/
def lineCorrupt : LineFrame → Bool
  | .delimited bytes => (parseFrame bytes).isNone
  | .cutShort => true
  | .stray => true
  | .overlong => true

/-- What the line hands over says a good frame's words, if it is one. -/
def lineFrameBody : LineFrame → Option FrameBody
  | .delimited bytes => parseFrame bytes
  | .cutShort => none
  | .stray => none
  | .overlong => none

/-- What symbols hand over, when the frame event before left the receiving side between frames, in a new frame, or waiting
for a start mark: the three places where a frame event leaves it. -/
def lineFrames (line : List LineSymbol) : List LineFrame :=
  [Receiver.between, .within [], .waiting].filterMap (fun r => (r.hear line).map Prod.fst)

end Sys2Proof.Machine
end

