-- ==== Sys2Proof/Machine/Memory.lean ====
section
/-! DEFINITION. The memory behind the channel: lists of cells in canonical form, and reading and writing its words
with their check codes (R34, R146, R150). -/

namespace Sys2Proof.Machine

/-- What a cell list holds at an address; nothing where it lists none. -/
def Mem.read (m : List Host.Cell) (a : Nat) : Option Byte :=
  match m with
  | [] => none
  | c :: rest => if c.1 = a then some c.2 else Mem.read rest a

/-- The cell list with byte `b` at address `a`, every other cell unchanged. -/
def Mem.write (m : List Host.Cell) (a : Nat) (b : Byte) : List Host.Cell :=
  match m with
  | [] => [(a, b)]
  | c :: rest =>
    if a < c.1 then (a, b) :: c :: rest
    else if a = c.1 then (a, b) :: rest
    else c :: Mem.write rest a b

/-- The canonical form: addresses strictly rising. An unlisted address reads as no byte, so no entry can equal what an
unlisted address reads as. -/
def Mem.wf : List Host.Cell → Bool
  | [] => true
  | [_] => true
  | c :: d :: rest => decide (c.1 < d.1) && Mem.wf (d :: rest)

/-- Bytes written at successive addresses. -/
def Mem.writeBytes (m : List Host.Cell) (a : Nat) : List Byte → List Host.Cell
  | [] => m
  | b :: bs => Mem.writeBytes (Mem.write m a b) (a + 1) bs

/-- The bytes of a word, in order of address (R153). -/
def wordBytes (w : Word) : List Byte := leBytes 8 w.toNat

/-- The word that 8 bytes in order of address spell (R153). -/
def wordOf (bytes : List Byte) : Word := BitVec.ofNat 64 (leNat bytes)

/-- Both canonical forms of the memory. -/
def Dram.wf (d : Dram) : Bool := Mem.wf d.data && Mem.wf d.codes

/-- The byte the memory gives for a physical address: what the hub wrote last, or the free contents of a byte it has
not written (R122, R126, R132, R150). -/
def Dram.byteAt (d : Dram) (a : Nat) : Byte := (Mem.read d.data a).getD (Config.unwrittenByte d.epoch a)

/-- The word stored at a physical address. -/
def Dram.wordAt (d : Dram) (a : Nat) : Word :=
  wordOf [d.byteAt a, d.byteAt (a + 1), d.byteAt (a + 2), d.byteAt (a + 3),
    d.byteAt (a + 4), d.byteAt (a + 5), d.byteAt (a + 6), d.byteAt (a + 7)]

/-- The check code stored beside the word at a physical address. -/
def Dram.codeAt (d : Dram) (a : Nat) : Byte :=
  (Mem.read d.codes (a / 8)).getD (Config.unwrittenCode d.epoch (a / 8))

/-- A word and the code beside it stored at a physical address. -/
def Dram.store (d : Dram) (a : Nat) (w : Word) (code : Byte) : Dram :=
  { d with data := Mem.writeBytes d.data a (wordBytes w), codes := Mem.write d.codes (a / 8) code }

/-- The memory after bits of the word at `a` have flipped (bits 63..0 of `flips` in the data, bits 71..64 in the
code). The flips stay in the memory until the word is next written (R150). -/
def Dram.flip (d : Dram) (a : Nat) (flips : BitVec 72) : Dram :=
  if flips = 0#72 then d
  else d.store a (d.wordAt a ^^^ flips.setWidth 64) (d.codeAt a ^^^ (flips >>> 64).setWidth 8)

/-- The memory once its contents have become undefined (R126, R132, R182). -/
def Dram.forget (d : Dram) : Dram := { d with data := [], codes := [], epoch := d.epoch + 1 }

/-- A command put on the command lines. -/
def Dram.issue (d : Dram) (c : DramCommand) : Dram := { d with issued := d.issued ++ [c] }

end Sys2Proof.Machine
end

