-- ==== Sys2Proof/Machine/AddressMap.lean ====
section
/-! DEFINITION. The address map, the ranges of bytes, the windows and the cut of a transaction into bursts
(R6, R8, R29, R47, R136–R139). -/

namespace Sys2Proof.Machine

/-- Memory size: BANKS × 2^ROW_BITS × PAGE bytes (scope file, Terms). -/
def Params.memorySize (c : Params) : Nat := c.banks * 2 ^ c.rowBits * c.page

/-- The bank of a physical address (R29). -/
def Params.bankOf (c : Params) (a : Nat) : Nat := a / 256 % c.banks

/-- The segment within the page of a physical address (R29). -/
def Params.segmentInPage (c : Params) (a : Nat) : Nat := a / (256 * c.banks) % (c.page / 256)

/-- The row of a physical address (R29). -/
def Params.rowOf (c : Params) (a : Nat) : Nat := a / (256 * c.banks * (c.page / 256)) % 2 ^ c.rowBits

/-- The column of the word at a physical address (R29). -/
def Params.columnOf (c : Params) (a : Nat) : Nat := c.segmentInPage a * 32 + a % 256 / 8

/-- Two ranges of bytes share at least one byte (R8, R76). -/
def rangesOverlap (base₁ length₁ base₂ length₂ : Nat) : Bool :=
  decide (base₁ < base₂ + length₂) && decide (base₂ < base₁ + length₁)

/-- A range crosses a segment boundary: its first and last bytes lie in different segments (R6). -/
def crossesSegment (addr length : Nat) : Bool := addr / 256 != (addr + length - 1) / 256

/-- The port range is contained in the window: its first and last bytes both lie in the window's range (R137). -/
def Window.contains (w : Window) (addr length : Nat) : Bool :=
  decide (w.base ≤ addr) && decide (addr + length ≤ w.base + w.size)

/-- The physical address of a contained port address (R137). -/
def Window.translate (w : Window) (addr : Nat) : Nat := w.target + (addr - w.base)

/-- The window grants the right that the kind needs (R6). -/
def Window.grants (w : Window) : Access → Bool
  | .read => w.read
  | .write => w.write

/-- The enabled window of a port that contains a range, in order of index; enabled windows of one port do not overlap,
so there is at most one (R137). -/
def containingWindow (ws : Quad (Option Window)) (addr length : Nat) : Option Window :=
  (ws.toList.filterMap id).find? (fun w => w.contains addr length)

/-- The check of R138: the translation, if the window that contains the range grants the right. -/
def translateFor (ws : Quad (Option Window)) (kind : Access) (addr length : Nat) : Option Nat :=
  match containingWindow ws addr length with
  | some w => if w.grants kind then some (w.translate addr) else none
  | none => none

/-- The check of R139: the translation through the window that contains the range, whatever its rights. -/
def translateAny (ws : Quad (Option Window)) (addr length : Nat) : Option Nat :=
  (containingWindow ws addr length).map (fun w => w.translate addr)

/-- The word of its segment at which an entry's transaction begins (R47). -/
def Entry.firstWord (e : Entry) : Nat := e.addr % 256 / 8

/-- The bytes of an entry's transaction (R8). -/
def Entry.length (e : Entry) : Nat := e.words * 8

/-- The word of its segment at which an entry's next burst begins: its first word not yet done (R47). -/
def Entry.nextWord (e : Entry) : Nat := e.firstWord + e.wordsDone

/-- The words of an entry's next burst: up to the transaction's last word or the last word before the next multiple of
8 words, whichever comes first (R47). -/
def Entry.burstWords (e : Entry) : Nat :=
  min (e.firstWord + e.words) ((e.nextWord / 8 + 1) * 8) - e.nextWord

/-- The physical address of the first word of an entry's next burst. -/
def Entry.burstAddr (e : Entry) : Nat := e.addr + e.wordsDone * 8

end Sys2Proof.Machine
end

