-- ==== Sys2Proof/Machine/Scheduler.lean ====
section
/-! DEFINITION. What the scheduler works out from the transaction table, the bank table and what the other units
present to it: candidates, ready commands, the rotation of the row command lane and the grant of the data lane
(R33, R36–R46, R50–R52). -/

namespace Sys2Proof.Machine

/-- Some unit presents a close-all demand (R50). -/
def Hub.closeAll (h : Hub) : Bool :=
  h.upkeep.items.closeAll || h.rest.items.closeAll || h.config.bringupItems.closeAll

/-- Some unit withholds opens (R51). -/
def Hub.opensWithheld (h : Hub) : Bool := h.upkeep.items.opensWithheld || h.config.items.opensWithheld

/-- Some unit withholds starts (R51). -/
def Hub.startsWithheld (h : Hub) : Bool := h.upkeep.items.startsWithheld || h.config.items.startsWithheld

/-- The entry is ACTIVE without an aborting mark (R38, R46). -/
def Entry.activeUnmarked (e : Entry) : Bool := e.phase == .active && e.aborting.isNone

/-- The entry may be served: QUEUED, or ACTIVE without an aborting mark (R38). -/
def Entry.servable (e : Entry) : Bool := e.phase == .queued || e.activeUnmarked

/-- The entries eligible in bank `b`, in the order of the age list (R38). -/
def Hub.eligible (h : Hub) (b : Nat) : List Entry := h.table.filter (fun e => e.bank == b && e.servable)

/-- An eligible entry is a hit when its bank is OPENING or OPEN at its row (R38). -/
def Bank.hit (k : Bank) (e : Entry) : Bool := (k.state == .opening || k.state == .opened) && k.row == some e.row

/-- The candidate among the eligible entries of a bank, oldest first (R38, R39). -/
def candidateAmong (k : Bank) (limit : Nat) (es : List Entry) : Option Entry :=
  match es.find? Entry.activeUnmarked with
  | some e => some e
  | none =>
    match es with
    | [] => none
    | head :: _ =>
      if k.hit head then some head
      else match es.find? (fun e => k.hit e) with
        | none => some head
        | some oldestHit =>
          if (es.takeWhile (fun e => !k.hit e)).any (fun e => e.passed == limit) then some head
          else some oldestHit

/-- The candidate of bank `b` (R38, R39). -/
def Hub.candidate (h : Hub) (b : Nat) : Option Entry :=
  match h.scheduler.banks[b]? with
  | none => none
  | some k => candidateAmong k h.config.committed.bypassLimit (h.eligible b)

/-- A burst is in flight to bank `b`. -/
def Scheduler.burstTo (s : Scheduler) (b : Nat) : Bool :=
  match s.burst with
  | some x => x.bank == b
  | none => false

/-- A mark has passed at a time; an absent mark counts as passed (R31, R33). -/
def markPassed (mark : Option Nat) (now : Nat) : Bool :=
  match mark with
  | some t => decide (t ≤ now)
  | none => true

/-- Closing bank `b` is allowed (R33). -/
def Hub.closingAllowed (h : Hub) (b : Nat) (k : Bank) : Bool :=
  k.state == .opened && markPassed k.openMark h.now && markPassed k.writeMark h.now && !h.scheduler.burstTo b

/-- One of the three needs of a ROW_CLOSE stands (R33). The first two are worked out over a SERVING channel only; outside
it the scheduler carries out only the closes that a close-all demand asks for (R42, R52). -/
def Hub.closeNeeded (h : Hub) (b : Nat) (k : Bank) : Bool :=
  let es := h.eligible b
  let miss := match candidateAmong k h.config.committed.bypassLimit es with
    | some e => !k.hit e
    | none => false
  let policy := h.config.committed.rowPolicy == .closeAfter && !es.any (fun e => k.hit e)
  (h.channel == .serving && (miss || policy)) || (k.closeRequested && !es.any Entry.activeUnmarked)

/-- A command to one bank (R36). -/
inductive BankCommand where
  /-- ROW_OPEN for the candidate. -/
  | openFor (e : Entry)
  | close
  deriving DecidableEq, Repr

/-- The ready command of bank `b` (R32, R33, R41, R43): at most one. No row command is issued while a channel-wide
command is in flight (R32, R37), and no ROW_OPEN while opens are withheld or outside SERVING (R51, R52). -/
def Hub.bankReady (h : Hub) (b : Nat) : Option BankCommand :=
  match h.scheduler.banks[b]? with
  | none => none
  | some k =>
    if h.scheduler.flight.isSome then none
    else if k.state = .closed then
      if h.channel = .serving ∧ h.opensWithheld = false then
        (candidateAmong k h.config.committed.bypassLimit (h.eligible b)).map BankCommand.openFor
      else none
    else if h.closingAllowed b k ∧ h.closeNeeded b k then some .close
    else none

/-- A given channel-wide command is in flight (R35). -/
def Scheduler.inFlight (s : Scheduler) (c : ChannelCommand) : Bool :=
  match s.flight with
  | some f => f.command == c
  | none => false

/-- Every bank is CLOSED (R35). -/
def Scheduler.allClosed (s : Scheduler) : Bool := s.banks.all (fun k => k.state == .closed)

/-- No burst and no channel-wide command is in flight (R35). -/
def Scheduler.idle (s : Scheduler) : Bool := s.burst.isNone && s.flight.isNone

/-- ALL_CLOSE is ready (R35). -/
def Hub.allCloseReady (h : Hub) : Bool := h.config.bringupItems.allClose && h.scheduler.idle

/-- MODE_LOAD is ready (R35). -/
def Hub.modeLoadReady (h : Hub) : Bool :=
  h.config.bringupItems.modeLoad && h.scheduler.flight.isNone && h.scheduler.allClosed

/-- An upkeep demand stands that may issue an UPKEEP: the rest unit's, the one of bring-up, or the upkeep unit's, which
issues none while a pending change stands (R35, R69). -/
def Hub.upkeepDemanded (h : Hub) : Bool :=
  h.rest.items.upkeep || h.config.bringupItems.upkeep || (h.upkeep.items.upkeep && h.config.change.isNone)

/-- UPKEEP is ready (R35). -/
def Hub.upkeepReady (h : Hub) : Bool := h.upkeepDemanded && h.scheduler.allClosed && h.scheduler.idle

/-- RETAIN_ENTER is ready (R35). -/
def Hub.retainEnterReady (h : Hub) : Bool := h.rest.items.retainEnter && h.scheduler.allClosed && h.scheduler.idle

/-- RETAIN_EXIT is ready (R35). -/
def Hub.retainExitReady (h : Hub) : Bool :=
  (h.rest.items.retainExit || h.config.items.retainExit) && h.dram.retention && h.scheduler.flight.isNone

/-- A channel-wide command is ready; it goes before commands to banks (R37). -/
def Hub.channelCommandReady (h : Hub) : Bool :=
  h.allCloseReady || h.modeLoadReady || h.upkeepReady || h.retainEnterReady || h.retainExitReady

/-- The banks in rotating order: from the bank after the last bank served, wrapping from the highest to bank 0 (R36).
DESIGN CHOICE (log entry 24): where the last bank served is no bank of the table any more, after a commit that has taken
BANKS from 8 to 4, the order begins at bank 0. The spec does not say where it begins. -/
def Scheduler.rotation (s : Scheduler) : List Nat :=
  let n := s.banks.length
  let start := if s.lastServed + 1 < n then s.lastServed + 1 else 0
  (List.range n).map (fun i => (start + i) % n)

/-- The bank command that the row command lane serves next: that of the first bank in rotating order that has one
ready (R36), unless a channel-wide command is ready (R37). -/
def Hub.laneServes (h : Hub) : Option (Nat × BankCommand) :=
  if h.channelCommandReady then none
  else h.scheduler.rotation.findSome? (fun b => (h.bankReady b).map (fun c => (b, c)))

/-- The candidate of its bank may be granted the data lane (R46, point 2): it is a hit, its bank is OPEN with its close
requested flag clear, and starts are not withheld. -/
def Hub.grantable (h : Hub) (e : Entry) : Bool :=
  match h.scheduler.banks[e.bank]? with
  | none => false
  | some k =>
    (candidateAmong k h.config.committed.bypassLimit (h.eligible e.bank) == some e) && k.hit e &&
      k.state == .opened && !k.closeRequested && !h.startsWithheld

/-- The ACTIVE entry has words left and its bank is OPEN at its row (R46, point 1). -/
def Hub.continuable (h : Hub) (e : Entry) : Bool :=
  decide (e.wordsDone < e.words) &&
    match h.scheduler.banks[e.bank]? with
    | none => false
    | some k => k.state == .opened && k.row == some e.row

/-- The entry to whose next burst the data lane is granted (R46). The lane must be free, no UPKEEP in flight, and the
channel SERVING (R42, R52). -/
def Hub.grant (h : Hub) : Option Entry :=
  if h.scheduler.burst.isSome ∨ h.scheduler.inFlight .upkeep ∨ h.channel ≠ .serving then none
  else match h.table.find? Entry.activeUnmarked with
    | some e => if h.continuable e then some e else none
    | none => h.table.find? (fun e => e.servable && h.grantable e)

end Sys2Proof.Machine
end

