-- ==== Sys2Proof/Machine/Flags.lean ====
section
/-! DEFINITION. What the units work out from the state: times, counts, the urgency level, the quiet of the table, the
items each unit presents to the scheduler, and the entry condition (R58–R66, R74, R105, R106, R110, R112, R124–R128). -/

namespace Sys2Proof.Machine

/-! ### Times and counts -/

/-- Memory clock periods in a microsecond: the clock runs at 400 MHz (R181). -/
def periodsPerMicrosecond : Nat := 400

/-- Memory clock periods in a millisecond (R181). -/
def periodsPerMillisecond : Nat := 400000

/-- The hub timer: milliseconds since the release of the reset line (R74). -/
def Hub.hubTime (h : Hub) : Nat := h.now / periodsPerMillisecond

/-- The hub at time `t`, or at the present time if that is later: a command whose event waits for a time takes place
at that time (log entry 2). -/
def Hub.reach (h : Hub) (t : Nat) : Hub := { h with now := max h.now t }

/-- A memory clock period passes in which no command comes (log entry 2). While the reset line is low the memory clock is
stopped and nothing counts (R182). -/
def Hub.tick (h : Hub) : Hub := if h.resetLow then h else { h with now := h.now + 1 }

/-- A 32-bit count risen by one; it stays at 0xFFFF_FFFF (R55, R59, R60, R93, R149, R162). -/
def rise32 (n : Nat) : Nat := min (n + 1) 0xFFFFFFFF

/-! ### Urgency (R61) -/

/-- The level of R61's table for a debt. -/
def urgencyOf (debt : Nat) : Urgency :=
  if debt = 0 then .clear
  else if debt ≤ 3 then .lax
  else if debt ≤ 7 then .due
  else if debt ≤ 10 then .urgent
  else .critical

/-- The level after the debt has become `debt`: once CRITICAL it stays CRITICAL until the debt is 7 or less (R61). -/
def urgencyAfter (before : Urgency) (debt : Nat) : Urgency :=
  if before = .critical ∧ 8 ≤ debt then .critical else urgencyOf debt

/-! ### Items presented (section 2.8) -/

/-- The transaction table is quiet: no entry is QUEUED or ACTIVE without an aborting mark (R63). -/
def Hub.quiet (h : Hub) : Bool := !h.table.any Entry.servable

/-- The items of R63's table. -/
def upkeepItemsFor (level : Urgency) (quiet : Bool) : Items :=
  match level with
  | .clear => Items.none
  | .lax => { Items.none with upkeep := quiet }
  | .due => { Items.none with upkeep := quiet, closeAll := quiet }
  | .urgent => { Items.none with upkeep := true, closeAll := true, opensWithheld := true, startsWithheld := true }
  | .critical =>
    { Items.none with upkeep := true, closeAll := true, opensWithheld := true, startsWithheld := true, stop := true }

/-- What the upkeep unit presents: R63's table while the channel is SERVING, nothing otherwise. -/
def Hub.upkeepItems (h : Hub) : Items :=
  if h.channel = .serving then upkeepItemsFor h.upkeep.level h.quiet else Items.none

/-- What the rest unit presents: in ENTERING, unless entry is abandoned, the close-all demand, the upkeep demand while
the debt is above 0, and the RETAIN_ENTER demand when every bank is CLOSED, the debt is 0 and no UPKEEP is in flight
(R106, R108); in LEAVING, unless a pending change stands, the demand of the command that its step waits for, until that
command is issued (R109, R110, R112). -/
def Hub.restItems (h : Hub) : Items :=
  match h.channel, h.rest.leaving with
  | .entering, _ =>
    if h.rest.abandoning then Items.none
    else { Items.none with
      closeAll := true
      upkeep := decide (0 < h.upkeep.debt)
      retainEnter := h.scheduler.allClosed && h.upkeep.debt == 0 && !h.scheduler.inFlight .upkeep }
  | .leaving, some .exitWait =>
    { Items.none with retainExit := h.config.change.isNone && !h.scheduler.inFlight .retainExit }
  | .leaving, some .exitUpkeep =>
    { Items.none with upkeep := h.config.change.isNone && !h.scheduler.inFlight .upkeep }
  | _, _ => Items.none

/-- What the configuration unit presents while a pending change stands: opens and starts withheld, and its own
RETAIN_EXIT demand once nothing is in flight and the memory is in retention (R124, R125, R131). -/
def Hub.configItems (h : Hub) : Items :=
  if h.config.change.isSome then
    { Items.none with
      opensWithheld := true
      startsWithheld := true
      retainExit := h.dram.retention && h.scheduler.idle }
  else Items.none

/-- What the bring-up sequence presents (R127, R128): the close-all demand until ALL_CLOSE is issued, ALL_CLOSE in
CLOSE and MODE_LOAD in MODE until issued, and in BURST the upkeep demand until the last UPKEEP is issued. -/
def Hub.bringupItems (h : Hub) : Items :=
  match h.config.bringup with
  | none => Items.none
  | some r =>
    match r.phase with
    | .settle => { Items.none with closeAll := true }
    | .close =>
      if h.scheduler.inFlight .allClose then Items.none else { Items.none with closeAll := true, allClose := true }
    | .mode => { Items.none with modeLoad := !h.scheduler.inFlight .modeLoad }
    | .burst =>
      { Items.none with upkeep := decide (1 < r.upkeepsLeft) || (r.upkeepsLeft == 1 && !h.scheduler.inFlight .upkeep) }

/-! ### Rest (R105) -/

/-- The port's link is UP. -/
def Hub.up (h : Hub) (p : Port) : Bool := (h.links.get p).state == .up

/-- Every port whose link is UP has its vote set (R105). -/
def Hub.allVoted (h : Hub) : Bool :=
  (h.links.zip (fun l v => l.state != .up || v) h.rest.votes).toList.all id

/-- The entry condition but for the channel: the votes, the empty table and no pending change (R105). -/
def Hub.restWanted (h : Hub) : Bool := h.allVoted && h.table.isEmpty && h.config.change.isNone

end Sys2Proof.Machine
end

