-- ==== Sys2Proof/Machine/Operands.lean ====
section
/-! DEFINITION. The wire layouts of messages: the requests a host sends and the message layer decodes, and the replies
and notices the hub sends (R153–R156). -/

namespace Sys2Proof.Machine

/-! ### Requests -/

/-- A pair of a CONFIG_SET: parameter id, reserved byte, value (R154). -/
structure SetPair where
  id : Byte
  reserved : Byte
  value : Nat
  deriving DecidableEq, Repr

/-- A request of a known kind whose payload length matches its kind, its fields as received (R154). A `reserved` field
holds every byte of the layout that is marked reserved, as one number. -/
inductive Request where
  | read (tag : Byte) (words reserved addr : Nat)
  | write (tag : Byte) (words reserved addr : Nat) (data : List Word)
  | fence (tag : Byte) (reserved : Nat)
  | leaseTake (tag : Byte) (mode flags : Byte) (addr length duration limit : Nat)
  | leaseDrop (tag : Byte) (id : Nat) (generation : Byte) (reserved : Nat)
  | leaseRenew (tag : Byte) (id : Nat) (generation : Byte) (duration reserved : Nat)
  | rest (tag : Byte) (reserved : Nat)
  | wake (tag : Byte) (reserved : Nat)
  | query (tag : Byte) (subject port : Nat)
  | configSet (tag : Byte) (reserved : Nat) (pairs : List SetPair)
  | configCommit (tag : Byte) (force reserved : Nat)
  | windowSet (tag : Byte) (port window enable : Nat) (rights : Byte) (reserved base size target : Nat)
  | handover (tag : Byte) (target reserved : Nat)
  | claim (tag : Byte) (reserved : Nat)
  | hubReset (tag : Byte) (reserved : Nat)
  deriving DecidableEq, Repr

/-- The data words of a WRITE: 8 bytes each, in order of address (R154). -/
def parseWords : List Byte → List Word
  | b0 :: b1 :: b2 :: b3 :: b4 :: b5 :: b6 :: b7 :: rest =>
    BitVec.ofNat 64 (leNat [b0, b1, b2, b3, b4, b5, b6, b7]) :: parseWords rest
  | _ => []

/-- The pairs of a CONFIG_SET: 4 bytes each (R154). -/
def parsePairs : List Byte → List SetPair
  | id :: reserved :: v0 :: v1 :: rest => ⟨id, reserved, leNat [v0, v1]⟩ :: parsePairs rest
  | _ => []

/-- The request that a message spells: nothing where the payload has fewer than 2 bytes, the kind is unknown or the
payload length does not match the kind (R154, R156). -/
def parseRequest (payload : List Byte) : Option Request :=
  match payload with
  | kind :: tag :: rest =>
    match kind.toNat, rest with
    | 0x10, [w, r, a0, a1, a2, a3] => some (.read tag w.toNat r.toNat (leNat [a0, a1, a2, a3]))
    | 0x11, w :: r :: a0 :: a1 :: a2 :: a3 :: data =>
      if 1 ≤ w.toNat ∧ w.toNat ≤ 32 ∧ data.length = 8 * w.toNat then
        some (.write tag w.toNat r.toNat (leNat [a0, a1, a2, a3]) (parseWords data))
      else none
    | 0x12, [r0, r1] => some (.fence tag (leNat [r0, r1]))
    | 0x20, [mode, flags, a0, a1, a2, a3, l0, l1, l2, l3, d0, d1, w0, w1] =>
      some (.leaseTake tag mode flags (leNat [a0, a1, a2, a3]) (leNat [l0, l1, l2, l3]) (leNat [d0, d1])
        (leNat [w0, w1]))
    | 0x21, [id, g, r0, r1, r2, r3] => some (.leaseDrop tag id.toNat g (leNat [r0, r1, r2, r3]))
    | 0x22, [id, g, d0, d1, r0, r1] => some (.leaseRenew tag id.toNat g (leNat [d0, d1]) (leNat [r0, r1]))
    | 0x30, [r0, r1] => some (.rest tag (leNat [r0, r1]))
    | 0x31, [r0, r1] => some (.wake tag (leNat [r0, r1]))
    | 0x40, [subject, port] => some (.query tag subject.toNat port.toNat)
    | 0x50, r0 :: r1 :: pairs =>
      if pairs.length % 4 = 0 ∧ 4 ≤ pairs.length ∧ pairs.length ≤ 64 then
        some (.configSet tag (leNat [r0, r1]) (parsePairs pairs))
      else none
    | 0x51, [force, r] => some (.configCommit tag force.toNat r.toNat)
    | 0x52, [port, window, enable, rights, r0, r1, b0, b1, b2, b3, s0, s1, s2, s3, t0, t1, t2, t3] =>
      some (.windowSet tag port.toNat window.toNat enable.toNat rights (leNat [r0, r1]) (leNat [b0, b1, b2, b3])
        (leNat [s0, s1, s2, s3]) (leNat [t0, t1, t2, t3]))
    | 0x53, [target, r] => some (.handover tag target.toNat r.toNat)
    | 0x54, [r0, r1] => some (.claim tag (leNat [r0, r1]))
    | 0x55, [r0, r1] => some (.hubReset tag (leNat [r0, r1]))
    | _, _ => none
  | _ => none

/-- The tag of the reply to a message that is no request: payload byte 1 as received, or 0 (R156). -/
def malformedTag (payload : List Byte) : Byte :=
  match payload with
  | _ :: tag :: _ => tag
  | _ => 0

/-! ### Codes -/

/-- The code of a status (R155). -/
def Status.code : Status → Nat
  | .ok => 0
  | .corrected => 1
  | .damaged => 2
  | .malformed => 8
  | .tagInUse => 9
  | .notReady => 10
  | .noWindow => 11
  | .span => 12
  | .full => 13
  | .locked => 14
  | .aborted => 15
  | .conflict => 16
  | .timeout => 17
  | .noLease => 18
  | .leaseFull => 19
  | .overlap => 20
  | .noRole => 21
  | .badParam => 22
  | .busy => 23

/-- The status of a data status (R16). -/
def DataStatus.status : DataStatus → Status
  | .ok => .ok
  | .corrected => .corrected
  | .damaged => .damaged

/-- The code of a notice kind (R155). -/
def NoticeKind.code : NoticeKind → Nat
  | .channelState => 1
  | .controlChanged => 2
  | .leaseLapsed => 3
  | .upkeepOverrun => 4

/-- The code of a channel state (R155). -/
def Channel.code : Channel → Nat
  | .unready => 0
  | .bringup => 1
  | .serving => 2
  | .entering => 3
  | .resting => 4
  | .leaving => 5

/-- The code of an urgency level (R163). -/
def Urgency.code : Urgency → Nat
  | .clear => 0
  | .lax => 1
  | .due => 2
  | .urgent => 3
  | .critical => 4

/-- The code of a link state (R163). -/
def LinkState.code : LinkState → Nat
  | .down => 0
  | .training => 1
  | .up => 2

/-- The code of a bank state (R164). -/
def BankState.code : BankState → Nat
  | .closed => 0
  | .opening => 1
  | .opened => 2
  | .closing => 3

/-- The code of a lease mode (R154). -/
def LeaseMode.code : LeaseMode → Nat
  | .sole => 0
  | .guarded => 1

/-- The holder's port number, or 0xFF when the role is vacant (R119, R163). -/
def holderCode : Option Port → Nat
  | some p => p.val
  | none => 0xFF

/-- The code of a ROW_POLICY (R120). -/
def RowPolicy.code : RowPolicy → Nat
  | .keepOpen => 0
  | .closeAfter => 1

/-- The code of a CONFLICT_ACTION (R120). -/
def ConflictAction.code : ConflictAction → Nat
  | .stall => 0
  | .reject => 1

/-! ### Messages the hub sends -/

/-- A number of `k` bytes that holds the field's largest value where the number exceeds it (R155). -/
def clampedBytes (k n : Nat) : List Byte := leBytes k (min n (256 ^ k - 1))

/-- The two bytes of a handle (R155). -/
def Handle.bytes (h : Handle) : List Byte := [BitVec.ofNat 8 h.id.val, h.generation]

/-- The payload of a REPLY (R155). -/
def Reply.bytes (r : Reply) : List Byte :=
  [0x80#8, r.tag, BitVec.ofNat 8 r.status.code, 0#8] ++ clampedBytes 2 r.detail ++ r.body

/-- The payload of a NOTICE (R155). -/
def noticeBytes (kind : NoticeKind) (n : NoticeRecord) : List Byte :=
  [0x81#8, BitVec.ofNat 8 kind.code, BitVec.ofNat 8 n.count, BitVec.ofNat 8 n.handles.length] ++
    clampedBytes 2 n.detail ++ n.handles.flatMap Handle.bytes

/-- The payload of a message of the hub (R155). -/
def OutMessage.bytes : OutMessage → List Byte
  | .reply r => r.bytes
  | .notice k n => noticeBytes k n

/-- The bytes of a MESSAGE frame that carries a message of the hub (R153). -/
def SentFrame.bytes (f : SentFrame) : List Byte := (FrameBody.message f.seq f.message.bytes).bytes

/-! ### Parameters by id -/

/-- The value of a parameter by its id, as CONFIG_SET and QUERY STAGED write it (R120, R154); nothing for an id that is
not in the parameter table. -/
def Params.valueOf (c : Params) (id : Nat) : Option Nat :=
  match id with
  | 0x01 => some c.banks
  | 0x02 => some c.rowBits
  | 0x03 => some c.page
  | 0x04 => some c.tOpen
  | 0x05 => some c.tClose
  | 0x06 => some c.tHoldMin
  | 0x07 => some c.tWriteRecover
  | 0x08 => some c.readLatency
  | 0x09 => some c.tUpkeep
  | 0x0A => some c.upkeepInterval
  | 0x0B => some c.retainExit
  | 0x0C => some c.settleCount
  | 0x0D => some c.bringupUpkeeps
  | 0x0E => some c.rowPolicy.code
  | 0x0F => some c.bypassLimit
  | 0x10 => some c.quota.p0
  | 0x11 => some c.quota.p1
  | 0x12 => some c.quota.p2
  | 0x13 => some c.quota.p3
  | 0x14 => some c.conflictAction.p0.code
  | 0x15 => some c.conflictAction.p1.code
  | 0x16 => some c.conflictAction.p2.code
  | 0x17 => some c.conflictAction.p3.code
  | _ => none

/-- The value lies in the range of the parameter with this id; false for an id that is not in the table (R120). -/
def paramInRange (id v : Nat) : Bool :=
  let within (lo hi : Nat) : Bool := decide (lo ≤ v) && decide (v ≤ hi)
  match id with
  | 0x01 => v == 4 || v == 8
  | 0x02 => within 12 16
  | 0x03 => v == 1024 || v == 2048 || v == 4096
  | 0x04 => within 2 15
  | 0x05 => within 2 15
  | 0x06 => within 4 63
  | 0x07 => within 1 15
  | 0x08 => within 2 8
  | 0x09 => within 8 255
  | 0x0A => within 64 16383
  | 0x0B => within 8 1023
  | 0x0C => within 1 64
  | 0x0D => within 2 16
  | 0x0E => within 0 1
  | 0x0F => within 0 15
  | 0x10 | 0x11 | 0x12 | 0x13 => within 0 32
  | 0x14 | 0x15 | 0x16 | 0x17 => within 0 1
  | _ => false

/-- The ROW_POLICY with a code (R120). -/
def rowPolicyOf (v : Nat) : RowPolicy := if v = 1 then .closeAfter else .keepOpen

/-- The CONFLICT_ACTION with a code (R120). -/
def conflictActionOf (v : Nat) : ConflictAction := if v = 1 then .reject else .stall

/-- The parameter set with the value of one parameter replaced (R121). -/
def Params.withValue (c : Params) (id v : Nat) : Params :=
  match id with
  | 0x01 => { c with banks := v }
  | 0x02 => { c with rowBits := v }
  | 0x03 => { c with page := v }
  | 0x04 => { c with tOpen := v }
  | 0x05 => { c with tClose := v }
  | 0x06 => { c with tHoldMin := v }
  | 0x07 => { c with tWriteRecover := v }
  | 0x08 => { c with readLatency := v }
  | 0x09 => { c with tUpkeep := v }
  | 0x0A => { c with upkeepInterval := v }
  | 0x0B => { c with retainExit := v }
  | 0x0C => { c with settleCount := v }
  | 0x0D => { c with bringupUpkeeps := v }
  | 0x0E => { c with rowPolicy := rowPolicyOf v }
  | 0x0F => { c with bypassLimit := v }
  | 0x10 => { c with quota := c.quota.set 0 v }
  | 0x11 => { c with quota := c.quota.set 1 v }
  | 0x12 => { c with quota := c.quota.set 2 v }
  | 0x13 => { c with quota := c.quota.set 3 v }
  | 0x14 => { c with conflictAction := c.conflictAction.set 0 (conflictActionOf v) }
  | 0x15 => { c with conflictAction := c.conflictAction.set 1 (conflictActionOf v) }
  | 0x16 => { c with conflictAction := c.conflictAction.set 2 (conflictActionOf v) }
  | 0x17 => { c with conflictAction := c.conflictAction.set 3 (conflictActionOf v) }
  | _ => c

/-- The ids of the parameter table, ascending (R120). -/
def paramIds : List Nat :=
  [0x01, 0x02, 0x03, 0x04, 0x05, 0x06, 0x07, 0x08, 0x09, 0x0A, 0x0B, 0x0C, 0x0D, 0x0E, 0x0F, 0x10, 0x11, 0x12, 0x13,
    0x14, 0x15, 0x16, 0x17]

end Sys2Proof.Machine
end

