-- ==== Sys2Proof/Machine/Ops.lean ====
section
/-! DEFINITION. Shared operations: a port's link and message layer, replies, notices and tags; the entries of the
transaction table, fences and leases; aborts, the channel's changes of state and the teardown of a port; and what every
event ends with. -/

namespace Sys2Proof.Machine

/-! ### Ports -/

/-- The hub with `f` applied to the link of port `p`. -/
def Hub.onLink (h : Hub) (p : Port) (f : Link → Link) : Hub := { h with links := h.links.upd p f }

/-- The hub with `f` applied to the message layer of port `p`. -/
def Hub.onMessages (h : Hub) (p : Port) (f : MessageLayer → MessageLayer) : Hub :=
  { h with messages := h.messages.upd p f }

/-- The link of port `p`. -/
def Hub.link (h : Hub) (p : Port) : Link := h.links.get p

/-- The message layer of port `p`. -/
def Hub.layer (h : Hub) (p : Port) : MessageLayer := h.messages.get p

/-- A frame sent on the outgoing pair. -/
def Link.send (l : Link) (f : FrameBody) : Link := { l with wire := l.wire ++ [f.bytes] }

/-- The room the port advertises: the free places on its inbound list (R171). -/
def Link.room (l : Link) : Nat := 4 - l.inbound.length

/-- The time within which an owed ACK must be sent: 4 µs (R171). -/
def ackDelay : Nat := 4 * periodsPerMicrosecond

/-- The replay timer and the room timer: 32 µs (R172, R175). -/
def replayTime : Nat := 32 * periodsPerMicrosecond

/-- The training timer: 2 ms (R167). -/
def trainingTime : Nat := 2 * periodsPerMillisecond

/-- An acknowledgement becomes owed; one that is owed already keeps its time (R171). -/
def Link.oweAck (l : Link) (now : Nat) : Link :=
  { l with ackOwed := match l.ackOwed with | some t => some t | none => some (now + ackDelay) }

/-! ### Replies and tags -/

/-- The tag of a pending reply. -/
def PendingReply.tag : PendingReply → Byte
  | .entry t _ | .fence t | .aborted t _ | .leaseGrant t _ _ | .leaseEnd t _ _ | .wake t | .commit t _ | .hubReset t => t

/-- The pending replies that the taking of a HUB_RESET discards: those of entries, fences and lease requests
(R24, R158). -/
def PendingReply.discardedByReset : PendingReply → Bool
  | .entry _ _ | .fence _ | .aborted _ _ | .leaseGrant _ _ _ | .leaseEnd _ _ _ => true
  | .wake _ | .commit _ _ | .hubReset _ => false

/-- A status whose code is 8 or above refuses a request at its taking (R162). -/
def Status.refuses (s : Status) : Bool := decide (8 ≤ s.code)

/-- A message placed at the tail of the outbound list (R159). -/
def Hub.place (h : Hub) (p : Port) (m : OutMessage) : Hub :=
  h.onLink p (fun l => { l with outbound := l.outbound ++ [m] })

/-- An immediate reply (R156); a refusal is counted (R162). -/
def Hub.answer (h : Hub) (p : Port) (r : Reply) : Hub :=
  let h := h.place p (.reply r)
  if r.status.refuses then h.onMessages p (fun m => { m with refusals := rise32 m.refusals }) else h

/-- An immediate refusal with no body. -/
def Hub.refuse (h : Hub) (p : Port) (tag : Byte) (status : Status) (detail : Nat) : Hub :=
  h.answer p ⟨tag, status, detail, []⟩

/-- An immediate OK with detail 0 and no body. -/
def Hub.accept (h : Hub) (p : Port) (tag : Byte) : Hub := h.answer p ⟨tag, .ok, 0, []⟩

/-- A completed reply joins the tail of the pending reply list (R158). -/
def Hub.defer (h : Hub) (p : Port) (r : PendingReply) : Hub :=
  h.onMessages p (fun m => { m with replies := m.replies ++ [r] })

/-- A request becomes outstanding: its tag joins the tag set (R156, R158). -/
def Hub.addTag (h : Hub) (p : Port) (tag : Byte) : Hub := h.onMessages p (fun m => { m with tags := m.tags ++ [tag] })

/-- Tags leave a message layer's tag set. -/
def MessageLayer.dropTags (m : MessageLayer) (gone : List Byte) : MessageLayer :=
  { m with tags := m.tags.filter (fun t => !gone.contains t) }

/-- The tag is in the port's tag set (R158). -/
def Hub.tagInUse (h : Hub) (p : Port) (tag : Byte) : Bool := (h.layer p).tags.contains tag

/-- An ABORTED reply: in the place of the pending reply of the same tag, or at the tail (R22, R23, R158). -/
def MessageLayer.answerAborted (m : MessageLayer) (tag : Byte) (detail : Nat) : MessageLayer :=
  let r := PendingReply.aborted tag detail
  if m.replies.any (fun x => x.tag == tag) then
    { m with replies := m.replies.map (fun x => if x.tag == tag then r else x) }
  else { m with replies := m.replies ++ [r] }

/-! ### Notices (R161) -/

/-- The record of a kind. -/
def NoticeSet.get (s : NoticeSet) : NoticeKind → Option NoticeRecord
  | .channelState => s.channelState
  | .controlChanged => s.controlChanged
  | .leaseLapsed => s.leaseLapsed
  | .upkeepOverrun => s.upkeepOverrun

/-- The set with the record of a kind replaced. -/
def NoticeSet.put (s : NoticeSet) (k : NoticeKind) (r : Option NoticeRecord) : NoticeSet :=
  match k with
  | .channelState => { s with channelState := r }
  | .controlChanged => { s with controlChanged := r }
  | .leaseLapsed => { s with leaseLapsed := r }
  | .upkeepOverrun => { s with upkeepOverrun := r }

/-- The kind of the first record present, in the order the arbiter serves them (R159). -/
def NoticeSet.first (s : NoticeSet) : Option NoticeKind :=
  [NoticeKind.channelState, .controlChanged, .leaseLapsed, .upkeepOverrun].find? (fun k => (s.get k).isSome)

/-- The record of a kind after one more event of it (R161). -/
def mergeNotice (old : Option NoticeRecord) (detail : Nat) (handle : Option Handle) : NoticeRecord :=
  match old with
  | none => ⟨1, detail, handle.toList⟩
  | some r =>
    ⟨min (r.count + 1) 255, detail, if r.handles.length < 16 then r.handles ++ handle.toList else r.handles⟩

/-- A notice record given to a message layer. -/
def MessageLayer.give (m : MessageLayer) (k : NoticeKind) (detail : Nat) (handle : Option Handle) : MessageLayer :=
  { m with notices := m.notices.put k (some (mergeNotice (m.notices.get k) detail handle)) }

/-- A notice record given to port `p`. -/
def Hub.notify (h : Hub) (p : Port) (k : NoticeKind) (detail : Nat) (handle : Option Handle) : Hub :=
  h.onMessages p (fun m => m.give k detail handle)

/-- A notice record given to every port whose link is UP (R161). -/
def Hub.notifyUp (h : Hub) (k : NoticeKind) (detail : Nat) : Hub :=
  { h with messages := h.links.zip (fun l m => if l.state = .up then m.give k detail none else m) h.messages }

/-! ### Entries -/

/-- No hold reason is left. -/
def Holds.isEmpty (x : Holds) : Bool := x.order.isNone && x.fencesAhead == 0 && !x.lease && !x.channel

/-- No hold reason. -/
def Holds.none : Holds := ⟨Option.none, 0, false, false⟩

/-- A HELD entry with no hold reason left becomes QUEUED (R12). -/
def Entry.promote (e : Entry) : Entry :=
  if e.phase = .held ∧ e.holds.isEmpty then { e with phase := .queued } else e

/-- The entry is HELD, QUEUED or ACTIVE (R9, R18). -/
def Entry.unfinished (e : Entry) : Bool := e.phase == .held || e.phase == .queued || e.phase == .active

/-- The two transactions are in hazard with each other (R8). -/
def hazard (a b : Entry) : Bool :=
  a.port == b.port && rangesOverlap a.addr a.length b.addr b.length && (a.kind == .write || b.kind == .write)

/-- The predecessor of an entry: the youngest of the unfinished entries ahead of it that are in hazard with it (R9). -/
def predecessorAmong (ahead : List Entry) (e : Entry) : Option Index :=
  ((ahead.filter (fun a => a.unfinished && hazard a e)).getLast?).map Entry.index

/-- The ORDER of every entry that names one of `gone` as predecessor is worked out again (R13); `ahead` is what stands
ahead of the list. -/
def reorder (gone : List Index) (ahead : List Entry) : List Entry → List Entry
  | [] => []
  | e :: rest =>
    let e' := match e.holds.order with
      | some i =>
        if gone.contains i then
          { e with holds := { e.holds with order := predecessorAmong ahead e } }.promote
        else e
      | none => e
    e' :: reorder gone (ahead ++ [e]) rest

/-- Entries leave the watch sets of a port's fences; the fences this completes are answered OK, in the order of the
fence list (R19). -/
def MessageLayer.unwatch (m : MessageLayer) (gone : List Index) : MessageLayer :=
  let fences := m.fences.map (fun f => { f with watch := f.watch.filter (fun i => !gone.contains i) })
  let complete := m.fences.filter (fun f => !f.watch.isEmpty && f.watch.all (fun i => gone.contains i))
  { m with fences := fences, replies := m.replies ++ complete.map (fun f => PendingReply.fence f.tag) }

/-- Entries have become DONE or have been freed: what names them as predecessor or watches them is released
(R13, R19). -/
def Hub.release (h : Hub) (gone : List Index) : Hub :=
  { h with table := reorder gone [] h.table, messages := h.messages.map (fun m => m.unwatch gone) }

/-- The entry with an index. -/
def Hub.entry (h : Hub) (i : Index) : Option Entry := h.table.find? (fun e => e.index == i)

/-- The table with `f` applied to the entry with an index. -/
def updateEntry (t : List Entry) (i : Index) (f : Entry → Entry) : List Entry :=
  t.map (fun e => if e.index = i then f e else e)

/-- The entries that a port occupies (R4). -/
def Hub.occupied (h : Hub) (p : Port) : Nat := (h.table.filter (fun e => e.port == p)).length

/-- The free entry with the lowest index (R2). -/
def Hub.freeIndex (h : Hub) : Option Index :=
  (List.finRange 32).find? (fun i => h.table.all (fun e => e.index != i))

/-! ### Leases -/

/-- The slot with an id. -/
def Hub.slot (h : Hub) (id : LeaseId) : Option LeaseSlot := h.leases.slots.find? (fun s => s.id == id)

/-- The lease unit with `f` applied to the slot with an id. -/
def LeaseUnit.onSlot (u : LeaseUnit) (id : LeaseId) (f : LeaseSlot → LeaseSlot) : LeaseUnit :=
  { u with slots := u.slots.map (fun s => if s.id = id then f s else s) }

/-- A lease of another port conflicts with a transaction (R77). -/
def Lease.conflictsWith (l : Lease) (port : Port) (kind : Access) (addr length : Nat) : Bool :=
  l.owner != port && rangesOverlap l.base l.length addr length && (l.mode == .sole || kind == .write)

/-- A lease of another port conflicts with a lease request (R76). -/
def Lease.conflictsWithRequest (l : Lease) (port : Port) (mode : LeaseMode) (base length : Nat) : Bool :=
  l.owner != port && rangesOverlap l.base l.length base length && (l.mode == .sole || mode == .sole)

/-- The ids of the slots whose lease meets a condition, ascending. -/
def LeaseUnit.idsWhere (u : LeaseUnit) (c : Lease → Bool) : List LeaseId :=
  (u.slots.filter (fun s => match s.lease with | some l => c l | none => false)).map LeaseSlot.id

/-- The drain set of a lease that is about to occupy a slot (R82). -/
def drainSet (t : List Entry) (owner : Port) (mode : LeaseMode) (base length : Nat) : List Index :=
  (t.filter (fun e => rangesOverlap base length e.addr e.length &&
    ((e.port != owner && (mode == .sole || e.kind == .write)) ||
      (mode == .guarded && e.port == owner && e.kind == .write)))).map Entry.index

/-- A GRANTING lease becomes GRANTED (R84). -/
def Hub.startLease (h : Hub) (id : LeaseId) (duration : Nat) : Hub :=
  let u := h.leases.onSlot id (fun s =>
    { s with lease := s.lease.map (fun l => { l with phase := .granted (h.hubTime + duration) }) })
  { h with leases := { u with grants := rise32 u.grants } }

/-- The lease in a slot is granted with a deferred reply if it is GRANTING with an empty drain set (R84). -/
def Hub.grantIfDrained (h : Hub) (id : LeaseId) : Hub :=
  match h.slot id with
  | some ⟨_, g, some ⟨owner, _, _, _, .granting duration _ [] tag⟩⟩ =>
    (h.startLease id duration).defer owner (.leaseGrant tag ⟨id, g⟩ duration)
  | _ => h

/-- Every GRANTING lease whose drain set is empty is granted, in order of slot id (R84, R158). -/
def Hub.grantDrained (h : Hub) : Hub := (h.leases.slots.map LeaseSlot.id).foldl Hub.grantIfDrained h

/-- A lease request occupies a slot: its generation rises, and its drain set is taken (R75, R80). -/
def Hub.occupySlot (h : Hub) (id : LeaseId) (w : Waiting) : Hub :=
  { h with leases := h.leases.onSlot id (fun s =>
      { s with
        generation := s.generation + 1
        lease := some ⟨w.port, w.base, w.length, w.mode,
          .granting w.duration w.deadline (drainSet h.table w.port w.mode w.base w.length) w.tag⟩ }) }

/-- The free slot with the lowest id (R75). -/
def Hub.freeSlot (h : Hub) : Option LeaseId := (h.leases.slots.find? (fun s => s.lease.isNone)).map LeaseSlot.id

/-- A waiting request of another port, among those listed, overlaps a request (R76, R79, R89). -/
def overlapsWaiting (ws : List Waiting) (port : Port) (base length : Nat) : Bool :=
  ws.any (fun w => w.port != port && rangesOverlap w.base w.length base length)

/-- A lease of another port in the table conflicts with a request (R76). -/
def Hub.conflictingLeases (h : Hub) (port : Port) (mode : LeaseMode) (base length : Nat) : List LeaseId :=
  h.leases.idsWhere (fun l => l.conflictsWithRequest port mode base length)

/-- The wait-list scan over the requests still to be looked at; `kept` are those already looked at and not placed
(R89). -/
def Hub.scanFrom (h : Hub) (kept : List Waiting) : List Waiting → Hub
  | [] => { h with leases := { h.leases with waits := kept } }
  | w :: ws =>
    match h.freeSlot with
    | some id =>
      if (h.conflictingLeases w.port w.mode w.base w.length).isEmpty && !overlapsWaiting kept w.port w.base w.length then
        ((h.occupySlot id w).grantIfDrained id).scanFrom kept ws
      else h.scanFrom (kept ++ [w]) ws
    | none => h.scanFrom (kept ++ [w]) ws

/-- The wait-list scan (R89). -/
def Hub.scanWaits (h : Hub) : Hub := h.scanFrom [] h.leases.waits

/-- The re-check of the entries HELD with LEASE against the leases in the table (R88). -/
def Hub.recheck (h : Hub) : Hub :=
  { h with table := h.table.map (fun e =>
      if e.phase = .held ∧ e.holds.lease = true ∧
          (h.leases.idsWhere (fun l => l.conflictsWith e.port e.kind e.addr e.length)) = [] then
        { e with holds := { e.holds with lease := false } }.promote
      else e) }

/-- Leases leave the table; every slot keeps its generation (R75). -/
def Hub.freeSlots (h : Hub) (c : LeaseSlot → Bool) : Hub :=
  { h with leases := { h.leases with slots := h.leases.slots.map (fun s => if c s then { s with lease := none } else s) } }

/-- One lease leaves the table: the slot is freed, the held entries are re-checked, the wait list is scanned (R90). -/
def Hub.leaseLeaves (h : Hub) (id : LeaseId) : Hub :=
  ((h.freeSlots (fun s => s.id == id)).recheck).scanWaits

/-- The owner of a lapsed lease is given a LEASE_LAPSED record, and the lapses count rises (R93). -/
def Hub.lapse (h : Hub) (s : LeaseSlot) : Hub :=
  match s.lease with
  | some l =>
    let h := h.notify l.owner .leaseLapsed 0 (some ⟨s.id, s.generation⟩)
    { h with leases := { h.leases with lapses := rise32 h.leases.lapses } }
  | none => h

/-! ### Freeing entries -/

/-- Entries leave the table, every opened-for index, every drain set, every watch set and every predecessor that names
them (R2, R17, R21, R31, R83). What their leaving grants is left to `Hub.grantDrained`. -/
def Hub.removeEntries (h : Hub) (gone : List Index) : Hub :=
  let banks := h.scheduler.banks.map (fun k =>
    match k.openedFor with
    | some i => if gone.contains i then { k with openedFor := none } else k
    | none => k)
  let slots := h.leases.slots.map (fun s =>
    { s with lease := s.lease.map (fun l =>
        match l.phase with
        | .granting duration deadline drain tag =>
          { l with phase := .granting duration deadline (drain.filter (fun i => !gone.contains i)) tag }
        | .granted _ => l) })
  Hub.release
    { h with
      table := h.table.filter (fun e => !gone.contains e.index)
      scheduler := { h.scheduler with banks := banks }
      leases := { h.leases with slots := slots } }
    gone

/-- Entries are freed, and the leases this drains are granted (R17, R21, R84). -/
def Hub.freeEntries (h : Hub) (gone : List Index) : Hub := (h.removeEntries gone).grantDrained

/-! ### Aborts (R21–R25) -/

/-- A burst of the entry is in flight. -/
def Hub.burstOf (h : Hub) (e : Entry) : Bool :=
  match h.scheduler.burst with
  | some x => x.entry == e.index && e.phase == .active
  | none => false

/-- The aborting mark after one more abort: an entry whose port has been torn down stays so (R21, R23). -/
def AbortKind.after (k : AbortKind) (old : Option AbortKind) : AbortKind := if old = some .torn then .torn else k

/-- The entries of some ports that have a burst in flight are marked aborting (R21). -/
def Hub.markAborting (h : Hub) (c : Entry → Bool) (k : AbortKind) : Hub :=
  { h with table := h.table.map (fun e =>
      if c e && h.burstOf e then { e with aborting := some (k.after e.aborting) } else e) }

/-- The entries that an abort frees at once (R21). -/
def Hub.freedByAbort (h : Hub) (c : Entry → Bool) : List Entry := h.table.filter (fun e => c e && !h.burstOf e)

/-- Aborted entries that are answered, and then the fences of every port, are answered ABORTED (R22, R23). -/
def Hub.answerAborts (h : Hub) (es : List Entry) : Hub :=
  let h := es.foldl (fun h e =>
    if e.aborting = some .torn then h else h.onMessages e.port (fun m => m.answerAborted e.tag e.wordsDone)) h
  { h with messages := h.messages.map (fun m =>
      { m.fences.foldl (fun m f => m.answerAborted f.tag 0) m with fences := [] }) }

/-- Every entry and fence of every port is aborted and answered (R23, R125). -/
def Hub.abortAnswered (h : Hub) : Hub :=
  let es := h.freedByAbort (fun _ => true)
  ((h.markAborting (fun _ => true) .answered).answerAborts es).removeEntries (es.map Entry.index)

/-- A commit that changes the geometry empties the lease table and the wait list (R96). DESIGN CHOICE (log entry 26): the
GRANTED leases lapse in order of slot id, which orders, and at 16 limits, the handles of an owner's LEASE_LAPSED record. -/
def Hub.emptyLeases (h : Hub) : Hub :=
  let h := h.leases.waits.foldl (fun h w => h.defer w.port (.leaseEnd w.tag .aborted 0)) h
  let h := h.leases.slots.foldl (fun h s =>
    match s.lease with
    | some ⟨owner, _, _, _, .granting _ _ _ tag⟩ => h.defer owner (.leaseEnd tag .aborted 0)
    | some ⟨_, _, _, _, .granted _⟩ => h.lapse s
    | none => h) h
  let h := h.freeSlots (fun _ => true)
  { h with leases := { h.leases with waits := [] } }

/-- The part of a commit that ends the work in the table and, when the geometry changes, the leases (R96, R124, R125):
at its taking with `force`, and at the copy. -/
def Hub.commitAborts (h : Hub) (abort geometry : Bool) : Hub :=
  let h := if abort then h.abortAnswered else h
  if geometry then h.emptyLeases
  else if abort then h.grantDrained
  else h

/-- The tags that a HUB_RESET takes out of the tag set of port `p`: those of the freed entries, the fences, the
discarded replies and the removed lease requests (R24, R97). An entry whose port has been torn down has none (R21). -/
def Hub.resetTags (h : Hub) (p : Port) (freed : List Entry) : List Byte :=
  (freed.filter (fun e => e.port == p && e.aborting != some .torn)).map Entry.tag ++
    (h.layer p).fences.map Fence.tag ++
    ((h.layer p).replies.filter PendingReply.discardedByReset).map PendingReply.tag ++
    (h.leases.waits.filter (fun w => w.port == p)).map Waiting.tag ++
    h.leases.slots.filterMap (fun s =>
      match s.lease with
      | some ⟨owner, _, _, _, .granting _ _ _ tag⟩ => if owner = p then some tag else none
      | _ => none)

/-- The work that a HUB_RESET discards, at its taking and again at the reset event: every entry and fence, the lease
table and the wait list, and the pending replies of all these (R24, R97, R131, R132). -/
def Hub.discardWork (h : Hub) : Hub :=
  let freed := h.freedByAbort (fun _ => true)
  let clear (p : Port) (m : MessageLayer) : MessageLayer :=
    { m.dropTags (h.resetTags p freed) with
      replies := m.replies.filter (fun r => !r.discardedByReset)
      fences := [] }
  let marked := h.markAborting (fun _ => true) .silent
  let h' : Hub :=
    { marked with
      messages := ⟨clear 0 h.messages.p0, clear 1 h.messages.p1, clear 2 h.messages.p2, clear 3 h.messages.p3⟩
      leases := { h.leases with slots := h.leases.slots.map (fun s => { s with lease := none }), waits := [] } }
  h'.removeEntries (freed.map Entry.index)

/-! ### The channel -/

/-- What every change of the channel to SERVING does: the abandoning mark and the leaving step become absent, the
CHANNEL holds clear and the deferred WAKEs are answered in the order of the list (R11, R104, R108, R110, R129). -/
def Hub.becomeServing (h : Hub) : Hub :=
  let h := h.rest.wakes.foldl (fun h w => h.defer w.1 (.wake w.2)) h
  { h with
    channel := .serving
    table := h.table.map (fun e => { e with holds := { e.holds with channel := false } }.promote)
    rest := { h.rest with abandoning := false, leaving := none, wakes := [] } }

/-- The interval timer stops, and the debt is 0 and the level CLEAR (R62). -/
def UpkeepUnit.stopTimer (u : UpkeepUnit) : UpkeepUnit := { u with timer := none, debt := 0, level := .clear }

/-- The interval timer is loaded with UPKEEP_INTERVAL (R62). -/
def Hub.loadTimer (h : Hub) : Hub :=
  { h with upkeep := { h.upkeep with timer := some (h.now + h.config.committed.upkeepInterval) } }

/-- LEAVING begins (R109). -/
def Hub.beginLeaving (h : Hub) : Hub :=
  { h with channel := .leaving, rest := { h.rest with leaving := some .exitWait } }.loadTimer

/-- The port asks for the memory, by a WAKE or an admitted transaction: its vote is cleared, and a channel that is
RESTING begins LEAVING unless a pending change stands (R102, R109, R112). -/
def Hub.wantMemory (h : Hub) (p : Port) : Hub :=
  let h := { h with rest := { h.rest with votes := h.rest.votes.set p false } }
  if h.channel = .resting ∧ h.config.change = none then h.beginLeaving else h

/-- At SERVING, the entry condition is evaluated: if it holds, the channel becomes ENTERING (R105). -/
def Hub.evaluateEntry (h : Hub) : Hub :=
  if h.channel = .serving ∧ h.restWanted = true then { h with channel := .entering } else h

/-- The rest unit's part at the end of every event: entry where the condition holds, and where it fails in ENTERING,
abandonment, which ends once no UPKEEP is in flight unless a pending change stands (R105, R108, R112). -/
def Hub.evaluateRest (h : Hub) : Hub :=
  if h.channel = .entering then
    let abandoning := h.rest.abandoning || !h.restWanted
    let h := { h with rest := { h.rest with abandoning := abandoning } }
    if abandoning = true ∧ h.config.change = none ∧ h.scheduler.inFlight .upkeep = false then
      h.becomeServing.evaluateEntry
    else h
  else h.evaluateEntry

/-- Every unit presents what it now asks for and withdraws what it no longer asks for. A close-all demand newly
presented flags every bank OPENING or OPEN; when no close-all demand is left, the flags are cleared (R50, R63). -/
def Hub.present (h : Hub) : Hub :=
  let upkeep := h.upkeepItems
  let rest := h.restItems
  let bringup := h.bringupItems
  let fresh := (upkeep.closeAll && !h.upkeep.items.closeAll) || (rest.closeAll && !h.rest.items.closeAll) ||
    (bringup.closeAll && !h.config.bringupItems.closeAll)
  let stands := upkeep.closeAll || rest.closeAll || bringup.closeAll
  let banks := h.scheduler.banks.map (fun k =>
    if fresh then
      if k.state = .opening ∨ k.state = .opened then { k with closeRequested := true } else k
    else if !stands && h.closeAll then { k with closeRequested := false }
    else k)
  { h with
    upkeep := { h.upkeep with items := upkeep }
    rest := { h.rest with items := rest }
    config := { h.config with items := h.configItems, bringupItems := bringup }
    scheduler := { h.scheduler with banks := banks } }

/-- The room timer runs while the replay list is empty, the outbound list holds a message, and the far-end room is 0 or
the full wait is set; it is loaded when these come to hold together (R175). -/
def Link.roomTimed (l : Link) (now : Nat) : Link :=
  if l.replay.isEmpty && !l.outbound.isEmpty && (l.farRoom == 0 || l.fullWait) then
    { l with roomTimer := match l.roomTimer with | some t => some t | none => some (now + replayTime) }
  else { l with roomTimer := none }

/-- What every event ends with: the rest unit evaluates its condition, the units present their items, and the room
timers start or stop. -/
def Hub.settle (h : Hub) : Hub :=
  let h := h.evaluateRest.present
  { h with links := h.links.map (fun l => l.roomTimed h.now) }

/-! ### Links -/

/-- Training starts, or starts again: the ALIGN step, far-end READY not seen, the timer at 2 ms (R167). -/
def Link.beginTraining (l : Link) (now : Nat) : Link :=
  { l with
    state := .training
    step := some .align
    farReady := false
    readySent := false
    trainingTimer := some (now + trainingTime) }

/-- A link port at the teardown: its lists are emptied, its items take their values, and it trains (R177). The receiving
side stays where it stands in the line coding, of which R177 says nothing (log entry 25), and the record of the outgoing
pair is kept. -/
def Link.tornDown (l : Link) (now : Nat) : Link :=
  { Link.down with receiver := l.receiver, wire := l.wire }.beginTraining now

/-- The teardown of port `p`, as its link enters DOWN (R177, R25, R95). Within the event the port's leases and waiting
requests leave before its entries are freed, and the leases of other ports that this drains are granted after the
wait-list scan (log entry 10). -/
def Hub.teardown (h : Hub) (p : Port) : Hub :=
  let h := h.onLink p (fun l => l.tornDown h.now)
  -- message layer (R165)
  let h := h.onMessages p (fun m => { m with tags := [], replies := [], notices := NoticeSet.empty, fences := [] })
  -- lease unit, steps 1 and 2 of R95
  let h := h.freeSlots (fun s => match s.lease with | some l => l.owner == p | none => false)
  let h := { h with leases := { h.leases with waits := h.leases.waits.filter (fun w => w.port != p) } }
  -- transaction table (R25)
  let freed := h.freedByAbort (fun e => e.port == p)
  let h := (h.markAborting (fun e => e.port == p) .torn).removeEntries (freed.map Entry.index)
  -- lease unit, steps 3 and 4 of R95, and the grants of drained leases
  let h := h.recheck.scanWaits.grantDrained
  -- rest unit (R102, R115)
  let h := { h with rest :=
    { h.rest with votes := h.rest.votes.set p false, wakes := h.rest.wakes.filter (fun w => w.1 != p) } }
  -- configuration unit (R116, R119, R129, R132)
  let h := { h with config :=
    { h.config with
      change := h.config.change.map (fun c => if c.port = p then { c with torn := true } else c)
      bringup := h.config.bringup.map (fun r => if r.port = p then { r with torn := true } else r) } }
  if h.config.holder = some p then
    { h with config := { h.config with holder := none } }.notifyUp .controlChanged (holderCode none)
  else h

/-- The link of port `p` becomes UP (R167, R102). -/
def Hub.linkUp (h : Hub) (p : Port) : Hub :=
  let h := h.onLink p (fun l =>
    { l with
      state := .up
      step := none
      farReady := false
      readySent := false
      trainingTimer := none
      expected := 0
      sendSeq := 0
      corrupt := 0
      replays := 0
      nakMark := false
      ackOwed := none
      resend := none
      fullWait := false
      replayTimer := none
      roomTimer := none })
  { h with rest := { h.rest with votes := h.rest.votes.set p false } }

/-! ### Taking a message (R156, R159) -/

/-- The arbiter may serve its third claimant: a place is free, no reply is pending and no notice record is present
(R159). -/
def Hub.mayTake (h : Hub) (p : Port) : Bool :=
  decide ((h.link p).outbound.length < 16) && (h.layer p).replies.isEmpty && (h.layer p).notices.first.isNone

/-- The message at the head of the inbound list has left it, `rest` being left, and the messages-taken count has risen. A
taking that raises the advertised room from 0 to 1 makes an acknowledgement owed (R156, R171). -/
def Hub.afterTaking (h : Hub) (p : Port) (rest : List (List Byte)) : Hub :=
  (h.onLink p (fun l => { (if l.inbound.length = 4 then l.oweAck h.now else l) with inbound := rest })).onMessages p
    (fun x => { x with taken := rise32 x.taken })

/-- The message at the head of the inbound list is taken, if the arbiter serves its third claimant (R156, R159). -/
def Hub.takeHead (h : Hub) (p : Port) : Option (List Byte × Hub) :=
  if h.mayTake p then
    match (h.link p).inbound with
    | [] => none
    | m :: rest => some (m, h.afterTaking p rest)
  else none

/-- The request at the head of the inbound list, and the hub once it has been taken; nothing where there is none to take
or the message is no request (R156). -/
def Hub.takeRequest (h : Hub) (p : Port) : Option (Request × Hub) :=
  match h.takeHead p with
  | some (m, h) => (parseRequest m).map (fun r => (r, h))
  | none => none

/-! ### Running a command -/

/-- The outcome of a command. While the reset line is low nothing happens (R182). Where `effect` gives a hub, the event
takes place and ends with `Hub.settle`; where it gives none, the hub does not take that event in the present state, and
nothing changes (log entry 1). -/
def State.perform (s : State) (effect : Hub → Option Hub) : Host.Outcome State Fault Refusal :=
  if s.hub.resetLow then .next s
  else match effect s.hub with
    | some h => .next { s with hub := h.settle }
    | none => .next s

end Sys2Proof.Machine
end

