-- ==== Sys2Proof/Machine/Channel.lean ====
section
/-! DEFINITION. The DRAM channel: the row command lane, the data lane, the channel-wide commands, their completions and
the interval timer (chapters 2, 3, 5, 6 and 8). -/

namespace Sys2Proof.Machine

/-- The hub at the next time the row command lane is free (R36). -/
def Hub.atLane (h : Hub) : Hub := h.reach h.scheduler.laneFreeAt

/-- A command goes onto the row command lane: it occupies the lane for one period from its issue (R36). -/
def Hub.onLane (h : Hub) (c : DramCommand) : Hub :=
  { h with scheduler := { h.scheduler with laneFreeAt := h.now + 1 }, dram := h.dram.issue c }

/-- The hub with `f` applied to bank record `b`. -/
def Hub.onBank (h : Hub) (b : Nat) (f : Bank → Bank) : Hub :=
  { h with scheduler := { h.scheduler with banks := h.scheduler.banks.modify b f } }

/-- Bank `b` has been served by the row command lane (R36). -/
def Hub.served (h : Hub) (b : Nat) : Hub := { h with scheduler := { h.scheduler with lastServed := b } }

/-! ### Banks (R32, R33) -/

/-- ROW_OPEN to bank `b`, when the lane serves it with an open (R32, R36, R43). -/
def Hub.issueRowOpen (h : Hub) (b : BankNo) : Option Hub :=
  let h := h.atLane
  match h.laneServes with
  | some (k, .openFor e) =>
    if k = b.val then
      let c := h.config.committed
      let h := (h.onLane (.rowOpen k e.row)).served k
      let h := h.onBank k (fun x =>
        { x with
          state := .opening
          row := some e.row
          openedFor := some e.index
          openMark := some (h.now + c.tHoldMin)
          doneAt := some (h.now + c.tOpen) })
      some { h with scheduler := { h.scheduler with misses := rise32 h.scheduler.misses } }
    else none
  | _ => none

/-- ROW_CLOSE to bank `b`, when the lane serves it with a close (R33, R36, R43). -/
def Hub.issueRowClose (h : Hub) (b : BankNo) : Option Hub :=
  let h := h.atLane
  match h.laneServes with
  | some (k, .close) =>
    if k = b.val then
      let c := h.config.committed
      let h := (h.onLane (.rowClose k)).served k
      some (h.onBank k (fun x =>
        { x with
          state := .closing
          row := none
          openedFor := none
          openMark := none
          closeRequested := false
          doneAt := some (h.now + c.tClose) }))
    else none
  | _ => none

/-- BANK_OPENED (R32): the bank becomes OPEN, and is flagged if a close-all demand stands (R50). -/
def Hub.bankOpens (h : Hub) (b : BankNo) : Option Hub :=
  match h.scheduler.banks[b.val]? with
  | some k =>
    match k.state, k.doneAt with
    | .opening, some t =>
      let h := h.reach t
      some (h.onBank b.val (fun k =>
        { k with state := .opened, doneAt := none, closeRequested := k.closeRequested || h.closeAll }))
    | _, _ => none
  | none => none

/-- BANK_CLOSED (R33). -/
def Hub.bankCloses (h : Hub) (b : BankNo) : Option Hub :=
  match h.scheduler.banks[b.val]? with
  | some k =>
    match k.state, k.doneAt with
    | .closing, some t => some ((h.reach t).onBank b.val (fun k => { k with state := .closed, doneAt := none }))
    | _, _ => none
  | none => none

/-- OPEN_MARK_PASSED (R33): the time of the open mark is reached. -/
def Hub.passOpenMark (h : Hub) (b : BankNo) : Option Hub :=
  match h.scheduler.banks[b.val]? with
  | some k => k.openMark.map h.reach
  | none => none

/-- WRITE_RECOVERY_MARK_PASSED (R33): the time of the write-recovery mark is reached, and the mark is passed (R31). -/
def Hub.passWriteMark (h : Hub) (b : BankNo) : Option Hub :=
  match h.scheduler.banks[b.val]? with
  | some k => k.writeMark.map (fun t => (h.reach t).onBank b.val (fun k => { k with writeMark := none }))
  | none => none

/-! ### The data lane (R34, R40, R46–R48) -/

/-- The next burst of an entry (R34, R47). The write data is taken from the places of the burst's words (R146). -/
def Hub.nextBurst (h : Hub) (e : Entry) : Burst where
  entry := e.index
  kind := e.kind
  bank := e.bank
  addr := e.burstAddr
  words := e.burstWords
  doneAt := match e.kind with
    | .read => h.now + h.config.committed.readLatency + e.burstWords
    | .write => h.now + e.burstWords
  data := match e.kind with
    | .read => []
    | .write => (e.buffer.drop e.wordsDone).take e.burstWords

/-- The grant of a first burst raises the passed count of every older QUEUED entry of the bank that is not a hit; a count
at 15 stays (R40). -/
def raisePassed (k : Bank) (e : Entry) : List Entry → List Entry
  | [] => []
  | x :: rest =>
    if x.index = e.index then x :: rest
    else
      (if x.bank = e.bank ∧ x.phase = .queued ∧ k.hit x = false then { x with passed := min (x.passed + 1) 15 } else x) ::
        raisePassed k e rest

/-- The grant of the data lane to the next burst of an entry: the entry is ACTIVE, and at a first burst the passed counts
and the row-hit count rise (R40, R48, R55). -/
def Hub.startBurst (h : Hub) (e : Entry) : Hub :=
  let k := (h.scheduler.banks[e.bank]?).getD Bank.closedRecord
  let first := e.wordsDone == 0
  let x := h.nextBurst e
  let c := h.config.committed
  let table := updateEntry (if first then raisePassed k e h.table else h.table) e.index
    (fun e => { e with phase := .active })
  let hits := if first && k.openedFor != some e.index then rise32 h.scheduler.hits else h.scheduler.hits
  let command := match e.kind with
    | .read => DramCommand.colRead e.bank e.row (c.columnOf x.addr) x.words
    | .write => DramCommand.colWrite e.bank e.row (c.columnOf x.addr) x.words
  { h with
    table := table
    scheduler := { h.scheduler with burst := some x, hits := hits }
    dram := h.dram.issue command }

/-- The outcome of a column command for entry `i`: it is issued when the data lane is granted to a burst of that entry and
the entry is of the command's kind. A burst that would reach beyond the memory faults (R29). -/
def State.column (s : State) (i : Index) (kind : Access) : Host.Outcome State Fault Refusal :=
  if s.hub.resetLow then .next s
  else match s.hub.grant with
    | some e =>
      if e.index = i ∧ e.kind = kind then
        if s.hub.config.committed.memorySize < e.burstAddr + e.burstWords * 8 then .fault .addressOutsideMemory
        else .next { s with hub := (s.hub.startBurst e).settle }
      else .next s
    | none => .next s

/-- What reading a burst's words changes: the memory (bits that have flipped), the counts and the damage record, and the
entry that reads them (R147, R149). -/
structure ReadProgress where
  dram : Dram
  check : CheckUnit
  entry : Entry
  deriving DecidableEq, Repr

/-- The data status after one more check (R147, R148). -/
def DataStatus.worsened (d : DataStatus) : CheckCode.Outcome → DataStatus
  | .clean => d
  | .corrected => if d = .ok then .corrected else d
  | .damaged => .damaged

/-- One word of a read burst, at physical address `a`: read with the bits that have flipped, checked, placed in the buffer
and counted (R147, R149). -/
def ReadProgress.word (r : ReadProgress) (a : Nat) (flips : BitVec 72) : ReadProgress :=
  let d := r.dram.flip a flips
  let (outcome, w) := CheckCode.check (d.wordAt a) (d.codeAt a)
  let e := { r.entry with
    buffer := r.entry.buffer ++ [w]
    status := r.entry.status.worsened outcome
    flagged := if outcome = .clean then r.entry.flagged else r.entry.flagged + 1 }
  let check := match outcome with
    | .clean => r.check
    | .corrected => { r.check with corrected := rise32 r.check.corrected }
    | .damaged => { r.check with damaged := rise32 r.check.damaged, damage := some ⟨a, r.entry.port⟩ }
  ⟨d, check, e⟩

/-- The words of a read burst from address `a` on, in column order (R147). -/
def ReadProgress.words (r : ReadProgress) (a : Nat) (flips : List (BitVec 72)) : Nat → ReadProgress
  | 0 => r
  | n + 1 => (r.word a (flips.headD 0)).words (a + 8) flips.tail n

/-- The words of a write burst stored from address `a` on, each with its fresh check code (R146). -/
def Dram.storeWords (d : Dram) (a : Nat) : List Word → Dram
  | [] => d
  | w :: ws => (d.store a w (CheckCode.code w)).storeWords (a + 8) ws

/-- An entry that carries the aborting mark is freed at the completion of its burst, and answered as its abort laid down
(R21, R22). -/
def Hub.freeAborting (h : Hub) (e : Entry) (k : AbortKind) : Hub :=
  let h := match k with
    | .answered => h.onMessages e.port (fun m => m.answerAborted e.tag e.wordsDone)
    | .silent => h.onMessages e.port (fun m => m.dropTags [e.tag])
    | .torn => h
  h.freeEntries [e.index]

/-- An entry becomes DONE: its reply is deferred, and what names or watches it is released (R13, R16, R19). -/
def Hub.finishEntry (h : Hub) (e : Entry) : Hub :=
  (({ h with table := updateEntry h.table e.index (fun e => { e with phase := .done }) }).defer e.port
    (.entry e.tag e.index)).release [e.index]

/-- What a burst's completion does to its entry, whose fields are those after the burst: the words done rise, and the
entry is freed if aborting, becomes DONE, returns to QUEUED under the stop at completion, or stays ACTIVE
(R15, R21, R48, R67). -/
def Hub.completeBurst (h : Hub) (e : Entry) (words : Nat) : Hub :=
  let e := { e with wordsDone := e.wordsDone + words }
  let h := { h with
    table := updateEntry h.table e.index (fun _ => e)
    scheduler := { h.scheduler with burst := none } }
  match e.aborting with
  | some k => h.freeAborting e k
  | none =>
    if e.words ≤ e.wordsDone then h.finishEntry e
    else if h.upkeep.items.stop then
      { h with table := updateEntry h.table e.index (fun e => { e with phase := .queued }) }
    else h

/-- COL_READ_COMPLETE (R34, R147). -/
def Hub.completeRead (h : Hub) (flips : List (BitVec 72)) : Option Hub :=
  match h.scheduler.burst with
  | some x =>
    if x.kind = .read then
      match h.entry x.entry with
      | some e =>
        let h := h.reach x.doneAt
        let r := ReadProgress.words ⟨h.dram, h.check, e⟩ x.addr flips x.words
        some ({ h with dram := r.dram, check := r.check }.completeBurst r.entry x.words)
      | none => none
    else none
  | none => none

/-- COL_WRITE_COMPLETE (R34, R146): the words and their codes are in memory, and the bank's write-recovery mark is set. -/
def Hub.completeWrite (h : Hub) : Option Hub :=
  match h.scheduler.burst with
  | some x =>
    if x.kind = .write then
      match h.entry x.entry with
      | some e =>
        let h := h.reach x.doneAt
        let h := { h with dram := h.dram.storeWords x.addr x.data }
        let h := h.onBank x.bank (fun k => { k with writeMark := some (h.now + h.config.committed.tWriteRecover) })
        some (h.completeBurst e x.words)
      | none => none
    else none
  | none => none

/-! ### Channel-wide commands (R35) -/

/-- A channel-wide command is issued on the row command lane and is in flight for `periods` (R35, R36). -/
def Hub.launch (h : Hub) (c : ChannelCommand) (d : DramCommand) (periods : Nat) : Hub :=
  let h := h.onLane d
  { h with scheduler := { h.scheduler with flight := some ⟨c, h.now + periods⟩ } }

/-- The channel-wide command in flight, if it is the one named, has completed: the hub at the time of its completion. -/
def Hub.landed (h : Hub) (c : ChannelCommand) : Option Hub :=
  match h.scheduler.flight with
  | some f =>
    if f.command = c then
      let h := h.reach f.doneAt
      some { h with scheduler := { h.scheduler with flight := none } }
    else none
  | none => none

/-- ALL_CLOSE (R35, R127). -/
def Hub.issueAllClose (h : Hub) : Option Hub :=
  let h := h.atLane
  if h.allCloseReady then some (h.launch .allClose .allClose h.config.committed.tClose) else none

/-- ALL_CLOSE_COMPLETE (R35, R128): the bank table takes BANKS CLOSED records, and phase MODE begins. -/
def Hub.completeAllClose (h : Hub) : Option Hub :=
  (h.landed .allClose).map (fun h =>
    { h with
      scheduler := { h.scheduler with banks := List.replicate h.config.committed.banks Bank.closedRecord }
      config := { h.config with bringup := h.config.bringup.map (fun r => { r with phase := .mode }) } })

/-- MODE_LOAD (R35, R128). -/
def Hub.issueModeLoad (h : Hub) : Option Hub :=
  let h := h.atLane
  if h.modeLoadReady then some (h.launch .modeLoad (.modeLoad h.config.committed.readLatency) 16) else none

/-- MODE_LOAD_COMPLETE (R128): the devices hold READ_LATENCY, and BURST begins with BRINGUP_UPKEEPS upkeeps left. -/
def Hub.completeModeLoad (h : Hub) : Option Hub :=
  (h.landed .modeLoad).map (fun h =>
    { h with
      dram := { h.dram with readLatency := h.config.committed.readLatency }
      config := { h.config with
        bringup := h.config.bringup.map (fun r =>
          { r with phase := .burst, upkeepsLeft := h.config.committed.bringupUpkeeps }) } })

/-- UPKEEP (R35). -/
def Hub.issueUpkeep (h : Hub) : Option Hub :=
  let h := h.atLane
  if h.upkeepReady then some (h.launch .upkeep .upkeep h.config.committed.tUpkeep) else none

/-- The account of an UPKEEP that has completed (R60, R61). -/
def UpkeepUnit.paid (u : UpkeepUnit) : UpkeepUnit :=
  { u with debt := u.debt - 1, completed := rise32 u.completed, level := urgencyAfter u.level (u.debt - 1) }

/-- Bring-up ends (R129): the channel becomes SERVING with the debt 0 and the timer loaded, UP ports are given a record,
and the commit's reply is deferred unless its port has been torn down since the taking. -/
def Hub.endBringup (h : Hub) (r : Bringup) : Hub :=
  let h := { h with
    config := { h.config with bringup := none }
    upkeep := { h.upkeep with debt := 0, level := .clear } }
  let h := (h.loadTimer.becomeServing).notifyUp .channelState Channel.serving.code
  if r.torn then h else h.defer r.port (.commit r.tag (if r.geometry then 1 else 0))

/-- UPKEEP_COMPLETE (R60): the account is paid; the last upkeep of BURST ends bring-up (R129), and the exit UPKEEP ends
LEAVING unless a pending change stands (R110, R112). The end of an abandonment stands in `Hub.settle`. -/
def Hub.completeUpkeep (h : Hub) : Option Hub :=
  (h.landed .upkeep).map (fun h =>
    let h := { h with upkeep := h.upkeep.paid }
    match h.config.bringup with
    | some r =>
      let r := { r with upkeepsLeft := r.upkeepsLeft - 1 }
      if r.upkeepsLeft = 0 then h.endBringup r else { h with config := { h.config with bringup := some r } }
    | none =>
      if h.channel = .leaving ∧ h.rest.leaving = some .exitUpkeep ∧ h.config.change = none then
        h.becomeServing.notifyUp .channelState Channel.serving.code
      else h)

/-- RETAIN_ENTER (R35, R107): the memory is in retention at its issue. -/
def Hub.issueRetainEnter (h : Hub) : Option Hub :=
  let h := h.atLane
  if h.retainEnterReady then
    let h := h.onLane .retainEnter
    let h := { h with
      channel := .resting
      dram := { h.dram with retention := true }
      upkeep := h.upkeep.stopTimer }
    some (h.notifyUp .channelState Channel.resting.code)
  else none

/-- RETAIN_EXIT (R35, R109, R125). -/
def Hub.issueRetainExit (h : Hub) : Option Hub :=
  let h := h.atLane
  if h.retainExitReady then some (h.launch .retainExit .retainExit h.config.committed.retainExit) else none

/-- RETAIN_EXIT_COMPLETE (R35, R110): the memory is usable; in LEAVING the leaving step becomes exit UPKEEP. -/
def Hub.completeRetainExit (h : Hub) : Option Hub :=
  (h.landed .retainExit).map (fun h =>
    { h with
      dram := { h.dram with retention := false }
      rest := { h.rest with leaving := h.rest.leaving.map (fun _ => LeavingStep.exitUpkeep) } })

/-! ### The interval timer (R58, R59) -/

/-- INTERVAL_TIMER_EXPIRY (R59): the timer is loaded again, and the debt rises or, at 12, an overrun is counted and told to
the holder of the control role (R70). -/
def Hub.intervalExpiry (h : Hub) : Option Hub :=
  match h.upkeep.timer with
  | none => none
  | some t =>
    let h := h.reach t
    let u : UpkeepUnit := { h.upkeep with timer := some (t + h.config.committed.upkeepInterval) }
    if u.debt < 12 then
      some { h with upkeep := { u with debt := u.debt + 1, level := urgencyAfter u.level (u.debt + 1) } }
    else
      let u : UpkeepUnit := { u with overruns := rise32 u.overruns }
      let h := { h with upkeep := u }
      some (match h.config.holder with
        | some p => h.notify p .upkeepOverrun u.overruns none
        | none => h)

/-! ### Meanings -/

/-- The meaning of ROW_OPEN. -/
def execRowOpen (b : BankNo) (s : State) : Host.Outcome State Fault Refusal := s.perform (fun h => h.issueRowOpen b)

/-- The meaning of ROW_CLOSE. -/
def execRowClose (b : BankNo) (s : State) : Host.Outcome State Fault Refusal := s.perform (fun h => h.issueRowClose b)

/-- The meaning of BANK_OPENED. -/
def execBankOpened (b : BankNo) (s : State) : Host.Outcome State Fault Refusal := s.perform (fun h => h.bankOpens b)

/-- The meaning of BANK_CLOSED. -/
def execBankClosed (b : BankNo) (s : State) : Host.Outcome State Fault Refusal := s.perform (fun h => h.bankCloses b)

/-- The meaning of OPEN_MARK_PASSED. -/
def execOpenMarkPassed (b : BankNo) (s : State) : Host.Outcome State Fault Refusal :=
  s.perform (fun h => h.passOpenMark b)

/-- The meaning of WRITE_RECOVERY_MARK_PASSED. -/
def execWriteRecoveryMarkPassed (b : BankNo) (s : State) : Host.Outcome State Fault Refusal :=
  s.perform (fun h => h.passWriteMark b)

/-- The meaning of COL_READ. -/
def execColRead (i : Index) (s : State) : Host.Outcome State Fault Refusal := s.column i .read

/-- The meaning of COL_WRITE. -/
def execColWrite (i : Index) (s : State) : Host.Outcome State Fault Refusal := s.column i .write

/-- The meaning of COL_READ_COMPLETE. -/
def execColReadComplete (flips : List (BitVec 72)) (s : State) : Host.Outcome State Fault Refusal :=
  s.perform (fun h => h.completeRead flips)

/-- The meaning of COL_WRITE_COMPLETE. -/
def execColWriteComplete (s : State) : Host.Outcome State Fault Refusal := s.perform Hub.completeWrite

/-- The meaning of ALL_CLOSE. -/
def execAllClose (s : State) : Host.Outcome State Fault Refusal := s.perform Hub.issueAllClose

/-- The meaning of ALL_CLOSE_COMPLETE. -/
def execAllCloseComplete (s : State) : Host.Outcome State Fault Refusal := s.perform Hub.completeAllClose

/-- The meaning of MODE_LOAD. -/
def execModeLoad (s : State) : Host.Outcome State Fault Refusal := s.perform Hub.issueModeLoad

/-- The meaning of MODE_LOAD_COMPLETE. -/
def execModeLoadComplete (s : State) : Host.Outcome State Fault Refusal := s.perform Hub.completeModeLoad

/-- The meaning of UPKEEP. -/
def execUpkeep (s : State) : Host.Outcome State Fault Refusal := s.perform Hub.issueUpkeep

/-- The meaning of UPKEEP_COMPLETE. -/
def execUpkeepComplete (s : State) : Host.Outcome State Fault Refusal := s.perform Hub.completeUpkeep

/-- The meaning of RETAIN_ENTER. -/
def execRetainEnter (s : State) : Host.Outcome State Fault Refusal := s.perform Hub.issueRetainEnter

/-- The meaning of RETAIN_EXIT. -/
def execRetainExit (s : State) : Host.Outcome State Fault Refusal := s.perform Hub.issueRetainExit

/-- The meaning of RETAIN_EXIT_COMPLETE. -/
def execRetainExitComplete (s : State) : Host.Outcome State Fault Refusal := s.perform Hub.completeRetainExit

/-- The meaning of INTERVAL_TIMER_EXPIRY. -/
def execIntervalTimerExpiry (s : State) : Host.Outcome State Fault Refusal := s.perform Hub.intervalExpiry

end Sys2Proof.Machine
end

