-- ==== Sys2Proof/Machine/Transactions.lean ====
section
/-! DEFINITION. READ, WRITE and FENCE (chapter 1). -/

namespace Sys2Proof.Machine

/-- The bytes of port address space: a range may not run past port address 0xFFFF_FFFF (R5). -/
def portSpace : Nat := 0x100000000

/-- The leases that check 7 of R5 names for a transaction: those of other ports that conflict with it (R77). -/
def Hub.foreignConflicts (h : Hub) (p : Port) (kind : Access) (addr length : Nat) : List LeaseId :=
  h.leases.idsWhere (fun l => l.conflictsWith p kind addr length)

/-- The GUARD leases of the port itself that a WRITE overlaps (R6, R77). -/
def Hub.ownGuards (h : Hub) (p : Port) (kind : Access) (addr length : Nat) : List LeaseId :=
  h.leases.idsWhere (fun l =>
    kind == .write && l.owner == p && l.mode == .guarded && rangesOverlap l.base l.length addr length)

/-- The lowest id among the leases that check 7 names (R5, R77). -/
def Hub.lowestNamed (h : Hub) (p : Port) (kind : Access) (addr length : Nat) : Nat :=
  match (h.leases.idsWhere (fun l => l.conflictsWith p kind addr length ||
      (kind == .write && l.owner == p && l.mode == .guarded && rangesOverlap l.base l.length addr length))) with
  | id :: _ => id.val
  | [] => 0

/-- The checks of R5, in order: the refusal, or the physical address and the index that an admitted request gets. -/
def Hub.admission (h : Hub) (p : Port) (kind : Access) (tag : Byte) (words reserved addr : Nat) :
    Except (Status × Nat) (Nat × Index) :=
  let length := words * 8
  if words < 1 ∨ 32 < words ∨ addr % 8 ≠ 0 ∨ portSpace < addr + length ∨ reserved ≠ 0 then .error (.malformed, 0)
  else if h.tagInUse p tag then .error (.tagInUse, 0)
  else if h.channel = .unready then .error (.notReady, 0)
  else match translateFor (h.windows.get p) kind addr length with
    | none => .error (.noWindow, 0)
    | some a =>
      if crossesSegment addr length then .error (.span, 0)
      else
        let quota := h.config.committed.quota.get p
        match h.freeIndex with
        | none => .error (.full, quota)
        | some i =>
          if quota ≤ h.occupied p then .error (.full, quota)
          else if h.ownGuards p kind a length ≠ [] ∨
              (h.foreignConflicts p kind a length ≠ [] ∧ h.config.committed.conflictAction.get p = .reject) then
            .error (.locked, h.lowestNamed p kind a length)
          else .ok (a, i)

/-- The entry that an admitted request occupies (R7), before its hold reasons are known. -/
def Hub.newEntry (h : Hub) (p : Port) (kind : Access) (tag : Byte) (words a : Nat) (i : Index) (data : List Word) :
    Entry where
  index := i
  port := p
  tag := tag
  kind := kind
  addr := a
  words := words
  wordsDone := 0
  bank := h.config.committed.bankOf a
  row := h.config.committed.rowOf a
  phase := .held
  holds := Holds.none
  passed := 0
  aborting := none
  status := .ok
  flagged := 0
  buffer := data

/-- The hold reasons of a new entry (R9, R10, R11). -/
def Hub.newHolds (h : Hub) (e : Entry) : Holds where
  order := predecessorAmong h.table e
  fencesAhead := (h.layer e.port).fences.length
  lease := !(h.foreignConflicts e.port e.kind e.addr e.length).isEmpty
  channel := h.channel == .bringup || h.channel == .entering || h.channel == .resting || h.channel == .leaving

/-- A READ or WRITE that has been taken: refused, or admitted (R5, R7). -/
def Hub.admitOrRefuse (h : Hub) (p : Port) (kind : Access) (tag : Byte) (words reserved addr : Nat) (data : List Word) : Hub :=
  match h.admission p kind tag words reserved addr with
  | .error (status, detail) => h.refuse p tag status detail
  | .ok (a, i) =>
    let e := h.newEntry p kind tag words a i data
    let e := { e with holds := h.newHolds e }.promote
    ({ h with table := h.table ++ [e] }.addTag p tag).wantMemory p

/-- READ (R5, R7). -/
def Hub.takeRead (h : Hub) (p : Port) : Option Hub :=
  match h.takeRequest p with
  | some (.read tag words reserved addr, h) => some (h.admitOrRefuse p .read tag words reserved addr [])
  | _ => none

/-- WRITE (R5, R7): its data words are copied into the entry's buffer (R145). -/
def Hub.takeWrite (h : Hub) (p : Port) : Option Hub :=
  match h.takeRequest p with
  | some (.write tag words reserved addr data, h) => some (h.admitOrRefuse p .write tag words reserved addr data)
  | _ => none

/-- A FENCE that has been taken (R18). -/
def Hub.addFence (h : Hub) (p : Port) (tag : Byte) (reserved : Nat) : Hub :=
  if reserved ≠ 0 then h.refuse p tag .malformed 0
  else if h.tagInUse p tag then h.refuse p tag .tagInUse 0
  else if 4 ≤ (h.layer p).fences.length then h.refuse p tag .full 0
  else
    let watch := (h.table.filter (fun e => e.port == p && e.unfinished)).map Entry.index
    if watch = [] then h.accept p tag
    else (h.onMessages p (fun m => { m with fences := m.fences ++ [⟨tag, watch⟩] })).addTag p tag

/-- FENCE (R18). -/
def Hub.takeFence (h : Hub) (p : Port) : Option Hub :=
  match h.takeRequest p with
  | some (.fence tag reserved, h) => some (h.addFence p tag reserved)
  | _ => none

/-- The meaning of READ. -/
def execRead (p : Port) (s : State) : Host.Outcome State Fault Refusal := s.perform (fun h => h.takeRead p)

/-- The meaning of WRITE. -/
def execWrite (p : Port) (s : State) : Host.Outcome State Fault Refusal := s.perform (fun h => h.takeWrite p)

/-- The meaning of FENCE. -/
def execFence (p : Port) (s : State) : Host.Outcome State Fault Refusal := s.perform (fun h => h.takeFence p)

end Sys2Proof.Machine
end

