-- ==== Sys2Proof/Machine/Configuration.lean ====
section
/-! DEFINITION. CONFIG_SET, CONFIG_COMMIT, WINDOW_SET, HANDOVER, CLAIM, HUB_RESET, SETTLE_END, COMMIT_COPY and
RESET_EVENT (chapters 6 and 7). -/

namespace Sys2Proof.Machine

/-- The checks that open every request of the configuration unit, in order: MALFORMED, TAG_IN_USE, and the role check
(R116). -/
def Hub.roleCheck (h : Hub) (p : Port) (tag : Byte) (malformed : Bool) : Option (Status × Nat) :=
  if malformed then some (.malformed, 0)
  else if h.tagInUse p tag then some (.tagInUse, 0)
  else if h.config.holder ≠ some p then some (.noRole, holderCode h.config.holder)
  else none

/-- The role check, and BUSY while a pending change stands (R121, R140). -/
def Hub.changeCheck (h : Hub) (p : Port) (tag : Byte) (malformed : Bool) : Option (Status × Nat) :=
  match h.roleCheck p tag malformed with
  | some r => some r
  | none => if h.config.change.isSome then some (.busy, 1) else none

/-- The role check, and BUSY while the channel is BRINGUP or a pending change stands (R123, R131). -/
def Hub.commitCheck (h : Hub) (p : Port) (tag : Byte) (malformed : Bool) : Option (Status × Nat) :=
  match h.roleCheck p tag malformed with
  | some r => some r
  | none => if h.channel = .bringup ∨ h.config.change.isSome then some (.busy, 1) else none

/-! ### CONFIG_SET (R121) -/

/-- A CONFIG_SET that has been taken: no pair is applied unless every pair passes. -/
def Hub.stage (h : Hub) (p : Port) (tag : Byte) (reserved : Nat) (pairs : List SetPair) : Hub :=
  match h.changeCheck p tag (reserved != 0 || pairs.any (fun x => x.reserved != 0)) with
  | some (status, detail) => h.refuse p tag status detail
  | none =>
    match pairs.findIdx? (fun x => !paramInRange x.id.toNat x.value) with
    | some k => h.refuse p tag .badParam k
    | none =>
      let staged := pairs.foldl (fun c x => c.withValue x.id.toNat x.value) h.config.staged
      { h with config := { h.config with staged := staged } }.accept p tag

/-- CONFIG_SET (R121). -/
def Hub.takeConfigSet (h : Hub) (p : Port) : Option Hub :=
  match h.takeRequest p with
  | some (.configSet tag reserved pairs, h) => some (h.stage p tag reserved pairs)
  | _ => none

/-! ### CONFIG_COMMIT (R123, R124) -/

/-- The two sets differ in geometry (R120). -/
def geometryDiffers (a b : Params) : Bool := a.banks != b.banks || a.rowBits != b.rowBits || a.page != b.page

/-- An enabled window reaches beyond a memory size (R123, R142). -/
def beyond (size : Nat) : Option Window → Bool
  | some w => decide (size < w.target + w.size)
  | none => false

/-- The windows in order of port and then of window. -/
def Hub.windowList (h : Hub) : List (Option Window) := h.windows.toList.flatMap Quad.toList

/-- The sum of the quotas. -/
def Params.quotaSum (c : Params) : Nat := c.quota.p0 + c.quota.p1 + c.quota.p2 + c.quota.p3

/-- Checks 2 to 6 of R123, in order. -/
def Hub.crossCheck (h : Hub) (force : Bool) : Option (Status × Nat) :=
  let c := h.config.staged
  if 32 < c.quotaSum then some (.badParam, 0x01)
  else if c.tHoldMin < c.tOpen then some (.badParam, 0x02)
  else if c.upkeepInterval < 4 * c.tUpkeep then some (.badParam, 0x03)
  else match h.windowList.findIdx? (beyond c.memorySize) with
    | some k => some (.badParam, 0x40 + k)
    | none => if h.table ≠ [] ∧ force = false then some (.busy, 2) else none

/-- A CONFIG_COMMIT that has been taken from the inbound list: refused, or the commit is taken (R123, R124). -/
def Hub.commit (h : Hub) (p : Port) (tag : Byte) (force reserved : Nat) : Hub :=
  match h.commitCheck p tag (decide (1 < force) || reserved != 0) with
  | some (status, detail) => h.refuse p tag status detail
  | none =>
    match h.crossCheck (force == 1) with
    | some (status, detail) => h.refuse p tag status detail
    | none =>
      let geometry := geometryDiffers h.config.staged h.config.committed
      let h := h.commitAborts (force == 1) geometry
      { h with config := { h.config with change := some ⟨.commit (force == 1) geometry, p, tag, false⟩ } }.addTag p tag

/-- CONFIG_COMMIT (R123). -/
def Hub.takeConfigCommit (h : Hub) (p : Port) : Option Hub :=
  match h.takeRequest p with
  | some (.configCommit tag force reserved, h) => some (h.commit p tag force reserved)
  | _ => none

/-! ### WINDOW_SET (R140) -/

/-- A WINDOW_SET is malformed (R140, check 1). A reserved bit of the rights byte is a reserved field, whatever the enable
flag (log entry 12). -/
def windowSetMalformed (port window enable : Nat) (rights : Byte) (reserved base size target : Nat) : Bool :=
  reserved != 0 || decide (3 < port) || decide (3 < window) || decide (1 < enable) || decide (3 < rights.toNat) ||
    (enable == 1 && (base % 256 != 0 || size % 256 != 0 || target % 256 != 0 || size == 0 ||
      decide (0x80000000 < size) || decide (portSpace < base + size) || rights == 0))

/-- The port ranges of a window record and a range overlap (R140, check 6). -/
def overlapsWindow (base size : Nat) : Option Window → Bool
  | some w => rangesOverlap base size w.base w.size
  | none => false

/-- A WINDOW_SET that has been taken (R140). -/
def Hub.setWindow (h : Hub) (p : Port) (tag : Byte) (port window enable : Nat) (rights : Byte)
    (reserved base size target : Nat) : Hub :=
  match h.changeCheck p tag (windowSetMalformed port window enable rights reserved base size target) with
  | some (status, detail) => h.refuse p tag status detail
  | none =>
    let n : Port := Fin.ofNat 4 port
    let k : Port := Fin.ofNat 4 window
    if enable = 0 then { h with windows := h.windows.upd n (fun ws => ws.set k none) }.accept p tag
    else if h.config.committed.memorySize < target + size then h.refuse p tag .badParam 0x10
    else match (((h.windows.get n).set k none).toList).findIdx? (overlapsWindow base size) with
      | some j => h.refuse p tag .badParam (0x20 + j)
      | none =>
        let w : Window := ⟨base, size, target, rights.getLsbD 0, rights.getLsbD 1⟩
        { h with windows := h.windows.upd n (fun ws => ws.set k (some w)) }.accept p tag

/-- WINDOW_SET (R140). -/
def Hub.takeWindowSet (h : Hub) (p : Port) : Option Hub :=
  match h.takeRequest p with
  | some (.windowSet tag port window enable rights reserved base size target, h) =>
    some (h.setWindow p tag port window enable rights reserved base size target)
  | _ => none

/-! ### The control role (R117–R119) -/

/-- The role passes to a port, and every UP port is given a CONTROL_CHANGED record (R119). -/
def Hub.giveRole (h : Hub) (p : Port) : Hub :=
  { h with config := { h.config with holder := some p } }.notifyUp .controlChanged (holderCode (some p))

/-- A HANDOVER that has been taken (R118). -/
def Hub.passRole (h : Hub) (p : Port) (tag : Byte) (target reserved : Nat) : Hub :=
  match h.roleCheck p tag (decide (3 < target) || reserved != 0) with
  | some (status, detail) => h.refuse p tag status detail
  | none =>
    let t : Port := Fin.ofNat 4 target
    if h.up t = false then h.refuse p tag .badParam target
    else if t = p then h.accept p tag
    else (h.giveRole t).accept p tag

/-- HANDOVER (R118). -/
def Hub.takeHandover (h : Hub) (p : Port) : Option Hub :=
  match h.takeRequest p with
  | some (.handover tag target reserved, h) => some (h.passRole p tag target reserved)
  | _ => none

/-- A CLAIM that has been taken (R117). -/
def Hub.claimRole (h : Hub) (p : Port) (tag : Byte) (reserved : Nat) : Hub :=
  if reserved ≠ 0 then h.refuse p tag .malformed 0
  else if h.tagInUse p tag then h.refuse p tag .tagInUse 0
  else match h.config.holder with
    | some q => h.refuse p tag .noRole q.val
    | none => (h.giveRole p).accept p tag

/-- CLAIM (R117). -/
def Hub.takeClaim (h : Hub) (p : Port) : Option Hub :=
  match h.takeRequest p with
  | some (.claim tag reserved, h) => some (h.claimRole p tag reserved)
  | _ => none

/-! ### HUB_RESET (R131) -/

/-- A HUB_RESET that has been taken from the inbound list: refused, or taken (R131). -/
def Hub.startReset (h : Hub) (p : Port) (tag : Byte) (reserved : Nat) : Hub :=
  match h.commitCheck p tag (reserved != 0) with
  | some (status, detail) => h.refuse p tag status detail
  | none =>
    let h := h.discardWork
    { h with config := { h.config with change := some ⟨.hubReset, p, tag, false⟩ } }.addTag p tag

/-- HUB_RESET (R131). -/
def Hub.takeHubReset (h : Hub) (p : Port) : Option Hub :=
  match h.takeRequest p with
  | some (.hubReset tag reserved, h) => some (h.startReset p tag reserved)
  | _ => none

/-! ### The end of SETTLE, the copy and the reset event -/

/-- SETTLE_END (R127): SETTLE_COUNT × UPKEEP_INTERVAL periods after the copy, phase CLOSE begins. -/
def Hub.endSettle (h : Hub) : Option Hub :=
  match h.config.bringup with
  | some r =>
    if r.phase = .settle then
      let h := h.reach r.settleEnd
      some { h with config := { h.config with bringup := some { r with phase := .close } } }
    else none
  | none => none

/-- COMMIT_COPY (R125): nothing is in flight and the memory is out of retention. -/
def Hub.copy (h : Hub) : Option Hub :=
  match h.config.change with
  | some ⟨.commit _ geometry, port, tag, torn⟩ =>
    if h.scheduler.idle = true ∧ h.dram.retention = false then
      let h := h.commitAborts true geometry
      let c := h.config.staged
      let h : Hub :=
        { h with
          channel := .bringup
          dram := if geometry then h.dram.forget else h.dram
          upkeep := h.upkeep.stopTimer
          rest := { h.rest with abandoning := false, leaving := none }
          config :=
            { h.config with
              committed := c
              change := none
              bringup := some ⟨.settle, h.now + c.settleCount * c.upkeepInterval, 0, port, tag, torn, geometry⟩ } }
      some (h.notifyUp .channelState Channel.bringup.code)
    else none
  | _ => none

/-- No bank is OPENING or CLOSING: no row command is in progress (R57, R131). -/
def Scheduler.rowsSettled (s : Scheduler) : Bool := s.banks.all (fun k => k.state == .closed || k.state == .opened)

/-- What the reset event leaves in a message layer, its tags and replies apart: the counters 0, the notice set empty, then
a CHANNEL_STATE record for UNREADY if the link is UP (R132, R165). -/
def MessageLayer.afterReset (l : Link) (m : MessageLayer) : MessageLayer :=
  let m := { m with taken := 0, completed := 0, refusals := 0, notices := NoticeSet.empty }
  if l.state = .up then m.give .channelState Channel.unready.code none else m

/-- RESET_EVENT (R132): nothing is in progress and the memory is out of retention. -/
def Hub.resetEvent (h : Hub) : Option Hub :=
  match h.config.change with
  | some ⟨.hubReset, port, tag, torn⟩ =>
    if h.scheduler.idle = true ∧ h.scheduler.rowsSettled = true ∧ h.dram.retention = false then
      let h := h.discardWork
      let h := h.rest.wakes.foldl (fun h w => h.defer w.1 (.wake w.2)) h
      let h : Hub :=
        { h with
          channel := .unready
          messages := h.links.zip MessageLayer.afterReset h.messages
          windows := Quad.all Window.powerUp
          scheduler := Scheduler.powerUp
          upkeep := { UpkeepUnit.powerUp with items := h.upkeep.items }
          leases := { h.leases with grants := 0, lapses := 0 }
          rest := { RestUnit.powerUp with items := h.rest.items }
          config := { h.config with staged := Params.default, committed := Params.default, change := none }
          check := ⟨0, 0, none⟩
          dram := h.dram.forget }
      some (if torn then h else h.defer port (.hubReset tag))
    else none
  | _ => none

/-! ### Meanings -/

/-- The meaning of CONFIG_SET. -/
def execConfigSet (p : Port) (s : State) : Host.Outcome State Fault Refusal := s.perform (fun h => h.takeConfigSet p)

/-- The meaning of CONFIG_COMMIT. -/
def execConfigCommit (p : Port) (s : State) : Host.Outcome State Fault Refusal :=
  s.perform (fun h => h.takeConfigCommit p)

/-- The meaning of WINDOW_SET. -/
def execWindowSet (p : Port) (s : State) : Host.Outcome State Fault Refusal := s.perform (fun h => h.takeWindowSet p)

/-- The meaning of HANDOVER. -/
def execHandover (p : Port) (s : State) : Host.Outcome State Fault Refusal := s.perform (fun h => h.takeHandover p)

/-- The meaning of CLAIM. -/
def execClaim (p : Port) (s : State) : Host.Outcome State Fault Refusal := s.perform (fun h => h.takeClaim p)

/-- The meaning of HUB_RESET. -/
def execHubReset (p : Port) (s : State) : Host.Outcome State Fault Refusal := s.perform (fun h => h.takeHubReset p)

/-- The meaning of SETTLE_END. -/
def execSettleEnd (s : State) : Host.Outcome State Fault Refusal := s.perform Hub.endSettle

/-- The meaning of COMMIT_COPY. -/
def execCommitCopy (s : State) : Host.Outcome State Fault Refusal := s.perform Hub.copy

/-- The meaning of RESET_EVENT. -/
def execResetEvent (s : State) : Host.Outcome State Fault Refusal := s.perform Hub.resetEvent

end Sys2Proof.Machine
end

