-- ==== Sys2Proof/Machine/Leases.lean ====
section
/-! DEFINITION. LEASE_TAKE, LEASE_DROP, LEASE_RENEW, LEASE_EXPIRY and WAIT_DEADLINE (chapter 4). -/

namespace Sys2Proof.Machine

/-- The bytes of a granting reply: lease id, generation, duration (R155). -/
def grantBody (handle : Handle) (duration : Nat) : List Byte := handle.bytes ++ leBytes 2 duration

/-- The mode with a code (R154). -/
def leaseModeOf (code : Byte) : LeaseMode := if code = 1 then .guarded else .sole

/-- A LEASE_TAKE is malformed (R78); a mode byte above 1 is neither SOLE nor GUARD, and bits 1–7 of the flags are
reserved (R154). -/
def leaseTakeMalformed (mode flags : Byte) (addr length duration limit : Nat) : Bool :=
  decide (1 < mode.toNat) || decide (1 < flags.toNat) || addr % 256 != 0 || length == 0 || length % 256 != 0 ||
    decide (portSpace < addr + length) || duration == 0 || limit == 0

/-- The position, from a number on, of the first waiting request that meets a condition. -/
def waitPosition (c : Waiting → Bool) (ws : List Waiting) : Option Nat := ws.findIdx? c

/-- Check 4 of R79: the detail of OVERLAP, where the range overlaps a lease or a waiting request of the port's own. -/
def Hub.ownOverlap (h : Hub) (p : Port) (base length : Nat) : Option Nat :=
  match h.leases.idsWhere (fun l => l.owner == p && rangesOverlap l.base l.length base length) with
  | id :: _ => some id.val
  | [] =>
    (waitPosition (fun w => w.port == p && rangesOverlap w.base w.length base length) h.leases.waits).map
      (fun k => 16 + k)

/-- The request is blocked (R79). -/
def Hub.blocked (h : Hub) (w : Waiting) : Bool :=
  !(h.conflictingLeases w.port w.mode w.base w.length).isEmpty || h.freeSlot.isNone ||
    overlapsWaiting h.leases.waits w.port w.base w.length

/-- The detail of CONFLICT (R79, check 6). -/
def Hub.conflictDetail (h : Hub) (w : Waiting) : Nat :=
  match h.conflictingLeases w.port w.mode w.base w.length with
  | id :: _ => id.val
  | [] =>
    match waitPosition (fun x => x.port != w.port && rangesOverlap x.base x.length w.base w.length) h.leases.waits with
    | some k => 16 + k
    | none => 0

/-- A LEASE_TAKE that is not blocked occupies the free slot with the lowest id; with an empty drain set it is granted at
once and replied at once (R80, R84). -/
def Hub.placeTake (h : Hub) (id : LeaseId) (w : Waiting) : Hub :=
  let h := h.occupySlot id w
  if drainSet h.table w.port w.mode w.base w.length = [] then
    let generation := match h.slot id with
      | some s => s.generation
      | none => 0
    (h.startLease id w.duration).answer w.port ⟨w.tag, .ok, 0, grantBody ⟨id, generation⟩ w.duration⟩
  else h.addTag w.port w.tag

/-- A LEASE_TAKE that has been taken: the checks of R79, in order. -/
def Hub.requestLease (h : Hub) (p : Port) (tag mode flags : Byte) (addr length duration limit : Nat) : Hub :=
  if leaseTakeMalformed mode flags addr length duration limit then h.refuse p tag .malformed 0
  else if h.tagInUse p tag then h.refuse p tag .tagInUse 0
  else match translateAny (h.windows.get p) addr length with
    | none => h.refuse p tag .noWindow 0
    | some base =>
      match h.ownOverlap p base length with
      | some detail => h.refuse p tag .overlap detail
      | none =>
        let w : Waiting := ⟨p, tag, base, length, leaseModeOf mode, duration, h.hubTime + limit⟩
        let queue := flags.getLsbD 0
        match h.freeSlot, h.blocked w with
        | some id, false => h.placeTake id w
        | none, _ =>
          if queue = false then h.refuse p tag .leaseFull 0
          else if 8 ≤ h.leases.waits.length then h.refuse p tag .leaseFull 1
          else { h with leases := { h.leases with waits := h.leases.waits ++ [w] } }.addTag p tag
        | some _, true =>
          if queue = false then h.refuse p tag .conflict (h.conflictDetail w)
          else if 8 ≤ h.leases.waits.length then h.refuse p tag .leaseFull 1
          else { h with leases := { h.leases with waits := h.leases.waits ++ [w] } }.addTag p tag

/-- LEASE_TAKE (R79). -/
def Hub.takeLeaseTake (h : Hub) (p : Port) : Option Hub :=
  match h.takeRequest p with
  | some (.leaseTake tag mode flags addr length duration limit, h) =>
    some (h.requestLease p tag mode flags addr length duration limit)
  | _ => none

/-- The slot that a handle of port `p` names: GRANTED, of the handle's generation, and owned by the port (R75). -/
def Hub.namedSlot (h : Hub) (p : Port) (id : Nat) (generation : Byte) : Option LeaseSlot :=
  h.leases.slots.find? (fun s => s.id.val == id && s.generation == generation &&
    match s.lease with
    | some ⟨owner, _, _, _, .granted _⟩ => owner == p
    | _ => false)

/-- A LEASE_DROP that has been taken: the checks of R91, in order. -/
def Hub.dropLease (h : Hub) (p : Port) (tag : Byte) (id : Nat) (generation : Byte) (reserved : Nat) : Hub :=
  if reserved ≠ 0 then h.refuse p tag .malformed 0
  else if h.tagInUse p tag then h.refuse p tag .tagInUse 0
  else match h.namedSlot p id generation with
    | none => h.refuse p tag .noLease 0
    | some s => (h.leaseLeaves s.id).accept p tag

/-- LEASE_DROP (R91). -/
def Hub.takeLeaseDrop (h : Hub) (p : Port) : Option Hub :=
  match h.takeRequest p with
  | some (.leaseDrop tag id generation reserved, h) => some (h.dropLease p tag id generation reserved)
  | _ => none

/-- A LEASE_RENEW that has been taken: the checks of R92, in order. -/
def Hub.renewLease (h : Hub) (p : Port) (tag : Byte) (id : Nat) (generation : Byte) (duration reserved : Nat) : Hub :=
  if reserved ≠ 0 ∨ duration = 0 then h.refuse p tag .malformed 0
  else if h.tagInUse p tag then h.refuse p tag .tagInUse 0
  else match h.namedSlot p id generation with
    | none => h.refuse p tag .noLease 0
    | some s =>
      let u := h.leases.onSlot s.id (fun s =>
        { s with lease := s.lease.map (fun l => { l with phase := .granted (h.hubTime + duration) }) })
      { h with leases := u }.accept p tag

/-- LEASE_RENEW (R92). -/
def Hub.takeLeaseRenew (h : Hub) (p : Port) : Option Hub :=
  match h.takeRequest p with
  | some (.leaseRenew tag id generation duration reserved, h) =>
    some (h.renewLease p tag id generation duration reserved)
  | _ => none

/-- LEASE_EXPIRY (R93): the hub timer reaches the expiry of the GRANTED lease in slot `id`. -/
def Hub.expireLease (h : Hub) (id : LeaseId) : Option Hub :=
  match h.slot id with
  | some s =>
    match s.lease with
    | some ⟨_, _, _, _, .granted expiry⟩ =>
      let h := h.reach (expiry * periodsPerMillisecond)
      some ((h.lapse s).leaseLeaves id)
    | _ => none
  | none => none

/-- The GRANTING slot whose request carries a port and a tag. -/
def Hub.grantingSlot (h : Hub) (p : Port) (tag : Byte) : Option (LeaseId × Nat × Nat) :=
  h.leases.slots.findSome? (fun s =>
    match s.lease with
    | some ⟨owner, _, _, _, .granting _ deadline drain t⟩ =>
      if owner = p ∧ t = tag then some (s.id, deadline, drain.length) else none
    | _ => none)

/-- WAIT_DEADLINE (R86): the hub timer reaches the deadline of an ungranted request, on the wait list or in a GRANTING
slot. Of the replies of this one event, those of requests that stood on the wait list join first (R158): the TIMEOUT of a
waiting request ahead of the grants of requests behind it, the TIMEOUT of a GRANTING lease after the grants of the scan. -/
def Hub.passDeadline (h : Hub) (p : Port) (tag : Byte) : Option Hub :=
  match h.leases.waits.find? (fun w => w.port == p && w.tag == tag) with
  | some w =>
    let h := h.reach (w.deadline * periodsPerMillisecond)
    let h := { h with leases := { h.leases with waits := h.leases.waits.filter (fun x => !(x.port == p && x.tag == tag)) } }
    some (h.defer p (.leaseEnd tag .timeout 0)).scanWaits
  | none =>
    match h.grantingSlot p tag with
    | some (id, deadline, left) =>
      let h := h.reach (deadline * periodsPerMillisecond)
      let h := h.leaseLeaves id
      some (h.defer p (.leaseEnd tag .timeout left))
    | none => none

/-- The meaning of LEASE_TAKE. -/
def execLeaseTake (p : Port) (s : State) : Host.Outcome State Fault Refusal := s.perform (fun h => h.takeLeaseTake p)

/-- The meaning of LEASE_DROP. -/
def execLeaseDrop (p : Port) (s : State) : Host.Outcome State Fault Refusal := s.perform (fun h => h.takeLeaseDrop p)

/-- The meaning of LEASE_RENEW. -/
def execLeaseRenew (p : Port) (s : State) : Host.Outcome State Fault Refusal := s.perform (fun h => h.takeLeaseRenew p)

/-- The meaning of LEASE_EXPIRY. -/
def execLeaseExpiry (id : LeaseId) (s : State) : Host.Outcome State Fault Refusal :=
  s.perform (fun h => h.expireLease id)

/-- The meaning of WAIT_DEADLINE. -/
def execWaitDeadline (p : Port) (tag : Byte) (s : State) : Host.Outcome State Fault Refusal :=
  s.perform (fun h => h.passDeadline p tag)

end Sys2Proof.Machine
end

