-- ==== Sys2Proof/Machine/Links.lean ====
section
/-! DEFINITION. The frames received and sent, and the link timers (chapter 10). -/

namespace Sys2Proof.Machine

/-- A good frame of any type received in UP sets the consecutive-corrupt count to 0 (R169). -/
def Link.heard (l : Link) : Link := { l with corrupt := 0 }

/-- A NAK is sent, naming the expected sequence, and the NAK mark is set (R169, R170). -/
def Link.nak (l : Link) (reason : NakReason) : Link := { l.send (.nak l.expected reason) with nakMark := true }

/-! ### Receiving (R167–R170, R173, R174, R181) -/

/-- The frame event that symbols of the line of port `p` make, and the hub whose port has heard them (R181). -/
def Hub.hear (h : Hub) (p : Port) (line : List LineSymbol) : Option (LineFrame × Hub) :=
  ((h.link p).receiver.hear line).map (fun x => (x.1, h.onLink p (fun l => { l with receiver := x.2 })))

/-- The good frame that symbols of the line of port `p` end, and the hub whose port has heard them (R169, R181). -/
def Hub.hearGood (h : Hub) (p : Port) (line : List LineSymbol) : Option (FrameBody × Hub) :=
  match h.hear p line with
  | some (f, h) => (lineFrameBody f).map (fun b => (b, h))
  | none => none

/-- A good MESSAGE frame received in UP (R170). -/
def Link.receiveMessage (l : Link) (now : Nat) (seq : Byte) (payload : List Byte) : Link :=
  let l := l.heard
  let d := (seq - l.expected).toNat
  if d = 0 then
    if l.inbound.length < 4 then
      { l with inbound := l.inbound ++ [payload], expected := l.expected + 1, nakMark := false }.oweAck now
    else l.nak .full
  else if d ≤ 128 then (if l.nakMark then l else l.nak .order)
  else l.oweAck now

/-- MESSAGE_FRAME_RECEIVED: placed by R170 in UP, discarded in TRAINING (R168). -/
def Hub.messageFrame (h : Hub) (p : Port) (line : List LineSymbol) : Option Hub :=
  match h.hearGood p line with
  | some (.message seq payload, h) =>
    if (h.link p).state = .up then some (h.onLink p (fun l => l.receiveMessage h.now seq payload)) else some h
  | _ => none

/-- The replay timer and the consecutive-replay count after progress (R173). -/
def Link.progress (l : Link) (now : Nat) : Link :=
  { l with replays := 0, replayTimer := if l.replay.isEmpty then none else some (now + replayTime) }

/-- A frame with a sequence is on the replay list. -/
def Link.holds (l : Link) (seq : Byte) : Bool := l.replay.any (fun f => f.seq == seq)

/-- A resend point whose frame has been removed moves to the head of the replay list, or becomes absent if the list is
empty (R173, step 4). -/
def Link.mendResend (l : Link) : Link :=
  match l.resend with
  | some q => if l.holds q then l else { l with resend := l.replay.head?.map SentFrame.seq }
  | none => l

/-- The frames of a replay list after the one with a sequence. -/
def framesAfter (seq : Byte) : List SentFrame → List SentFrame
  | [] => []
  | f :: fs => if f.seq = seq then fs else framesAfter seq fs

/-- The frames of a replay list from the one with a sequence on. -/
def framesFrom (seq : Byte) : List SentFrame → List SentFrame
  | [] => []
  | f :: fs => if f.seq = seq then f :: fs else framesFrom seq fs

/-- A good ACK received in UP (R173). -/
def Link.receiveAck (l : Link) (now : Nat) (n : Byte) (room : Nat) : Link :=
  let l := l.heard
  -- step 1
  let l := if l.holds n then { l with replay := framesAfter n l.replay }.progress now else l
  -- steps 2 and 3
  let l :=
    if l.fullWait = true ∧ 0 < room then
      { l with
        farRoom := room
        fullWait := false
        resend := match l.resend with | some q => some q | none => l.replay.head?.map SentFrame.seq }
    else { l with farRoom := room }
  -- step 4
  l.mendResend

/-- ACK_RECEIVED: taken by R173 in UP, discarded in TRAINING (R168). -/
def Hub.ackFrame (h : Hub) (p : Port) (line : List LineSymbol) : Option Hub :=
  match h.hearGood p line with
  | some (.ack n room, h) =>
    if (h.link p).state = .up then some (h.onLink p (fun l => l.receiveAck h.now n room)) else some h
  | _ => none

/-- The replay list without the frames ahead of sequence `e`, or without any frame if `e` is the send sequence (R174). -/
def Link.cutAhead (l : Link) (now : Nat) (e : Byte) : Link :=
  let rest := if l.holds e then framesFrom e l.replay else []
  if rest.length < l.replay.length then ({ l with replay := rest }.progress now).mendResend else l

/-- A good NAK received in UP (R174). A resend point whose frame the NAK has removed is mended as by an ACK
(log entry 11). -/
def Link.receiveNak (l : Link) (now : Nat) (e : Byte) (reason : NakReason) : Link :=
  let l := l.heard
  if l.holds e || e == l.sendSeq then
    let l := l.cutAhead now e
    match reason with
    | .corrupt | .order =>
      if l.holds e then { l with resend := some e, replayTimer := some (now + replayTime) } else l
    | .full =>
      { l with farRoom := 0, fullWait := true, replays := 0, resend := if l.holds e then some e else l.resend }
  else l

/-- NAK_RECEIVED: taken by R174 in UP, discarded in TRAINING (R168). -/
def Hub.nakFrame (h : Hub) (p : Port) (line : List LineSymbol) : Option Hub :=
  match h.hearGood p line with
  | some (.nak e reason, h) =>
    if (h.link p).state = .up then some (h.onLink p (fun l => l.receiveNak h.now e reason)) else some h
  | _ => none

/-- ALIGN_RECEIVED: in TRAINING the first good ALIGN moves the port to the READY step; in UP it takes the link DOWN
(R167, R168). -/
def Hub.alignFrame (h : Hub) (p : Port) (line : List LineSymbol) : Option Hub :=
  match h.hearGood p line with
  | some (.align, h) =>
    match (h.link p).state with
    | .up => some (h.teardown p)
    | .training => some (h.onLink p (fun l => { l with step := some .ready }))
    | .down => none
  | _ => none

/-- READY_RECEIVED: in TRAINING far-end READY is seen and the far-end room taken, and the link comes UP if the port has
sent a READY; in UP it is answered with one READY (R167, R168). -/
def Hub.readyFrame (h : Hub) (p : Port) (line : List LineSymbol) : Option Hub :=
  match h.hearGood p line with
  | some (.ready room, h) =>
    match (h.link p).state with
    | .up => some (h.onLink p (fun l => l.heard.send (.ready l.room)))
    | .training =>
      let h := h.onLink p (fun l => { l with step := some .ready, farReady := true, farRoom := room })
      some (if (h.link p).readySent then h.linkUp p else h)
    | .down => none
  | _ => none

/-- CORRUPT_FRAME: counted and answered in UP, or the link goes DOWN at the eighth in a row; discarded in TRAINING
(R168, R169). -/
def Hub.corruptFrame (h : Hub) (p : Port) (line : List LineSymbol) : Option Hub :=
  match h.hear p line with
  | some (f, h) =>
    if lineCorrupt f then
      if (h.link p).state = .up then
        if 8 ≤ (h.link p).corrupt + 1 then some (h.teardown p)
        else some (h.onLink p (fun l =>
          let l := { l with corrupt := l.corrupt + 1 }
          if l.nakMark then l else l.nak .corrupt))
      else some h
    else none
  | none => none

/-! ### Sending (R167, R171, R172, R174) -/

/-- TRAINING_TIMER_EXPIRY: training restarts (R167). -/
def Hub.trainingExpiry (h : Hub) (p : Port) : Option Hub :=
  match (h.link p).state, (h.link p).trainingTimer with
  | .training, some t =>
    let h := h.reach t
    some (h.onLink p (fun l => l.beginTraining h.now))
  | _, _ => none

/-- ALIGN_SENT, in the ALIGN step (R167). -/
def Hub.sendAlign (h : Hub) (p : Port) : Option Hub :=
  if (h.link p).state = .training ∧ (h.link p).step = some .align then some (h.onLink p (fun l => l.send .align))
  else none

/-- READY_SENT, in the READY step; the link comes UP if far-end READY has been seen (R167). -/
def Hub.sendReady (h : Hub) (p : Port) : Option Hub :=
  if (h.link p).state = .training ∧ (h.link p).step = some .ready then
    let h := h.onLink p (fun l => { l.send (.ready l.room) with readySent := true })
    some (if (h.link p).farReady then h.linkUp p else h)
  else none

/-- ACK_SENT: pays every acknowledgement owed, with the acknowledged sequence and the room as they stand (R171). -/
def Hub.sendAck (h : Hub) (p : Port) : Option Hub :=
  if (h.link p).state = .up ∧ (h.link p).ackOwed ≠ none then
    some (h.onLink p (fun l => { l.send (.ack (l.expected - 1) l.room) with ackOwed := none }))
  else none

/-- A message of the outbound list moves into a new frame: it takes the send sequence, the far-end room falls by one, the
frame joins the replay list, and the replay timer is loaded if the list was empty (R172). -/
def Link.frameNew (l : Link) (now : Nat) (m : OutMessage) (rest : List OutMessage) : Link :=
  let f : SentFrame := ⟨l.sendSeq, m⟩
  { l with
    outbound := rest
    sendSeq := l.sendSeq + 1
    farRoom := l.farRoom - 1
    replay := l.replay ++ [f]
    replayTimer := if l.replay.isEmpty then some (now + replayTime) else l.replayTimer
    wire := l.wire ++ [f.bytes] }

/-- MESSAGE_FRAME_SENT (R172). -/
def Hub.sendMessage (h : Hub) (p : Port) : Option Hub :=
  let l := h.link p
  match l.outbound with
  | [] => none
  | m :: rest =>
    if l.state = .up ∧ l.replay.length < 12 ∧ 0 < l.farRoom ∧ l.resend = none ∧ l.fullWait = false then
      some (h.onLink p (fun l => l.frameNew h.now m rest))
    else none

/-- FRAME_RESENT: the frame at the resend point is sent again; the resend point moves to the frame after it, and becomes
absent when the tail has been sent (R174). -/
def Hub.resendFrame (h : Hub) (p : Port) : Option Hub :=
  let l := h.link p
  match l.resend with
  | none => none
  | some q =>
    match framesFrom q l.replay with
    | [] => none
    | f :: fs =>
      if l.state = .up ∧ l.fullWait = false then
        some (h.onLink p (fun l =>
          { l with wire := l.wire ++ [f.bytes], resend := fs.head?.map SentFrame.seq }))
      else none

/-! ### Link timers (R175) -/

/-- REPLAY_TIMER_EXPIRY: the whole replay list is to be sent again, or in the full wait its head alone is sent; at the
consecutive-replay count 4 the link goes DOWN (R175). -/
def Hub.replayExpiry (h : Hub) (p : Port) : Option Hub :=
  match (h.link p).replayTimer, (h.link p).replay with
  | some t, f :: _ =>
    if (h.link p).state = .up then
      let h := h.reach t
      if 4 ≤ (h.link p).replays then some (h.teardown p)
      else some (h.onLink p (fun l =>
        let l := { l with replays := l.replays + 1, replayTimer := some (h.now + replayTime) }
        if l.fullWait then { l with wire := l.wire ++ [f.bytes] } else { l with resend := some f.seq }))
    else none
  | _, _ => none

/-- ROOM_TIMER_EXPIRY: the head of the outbound list is framed as a probe, without room (R175). The far-end room stays 0
and the full wait keeps its value (R172). -/
def Hub.roomExpiry (h : Hub) (p : Port) : Option Hub :=
  match (h.link p).roomTimer, (h.link p).outbound with
  | some t, m :: rest =>
    if (h.link p).state = .up ∧ (h.link p).replay = [] then
      let h := h.reach t
      some (h.onLink p (fun l => l.frameNew h.now m rest))
    else none
  | _, _ => none

/-! ### Meanings -/

/-- The meaning of MESSAGE_FRAME_RECEIVED. -/
def execMessageFrameReceived (p : Port) (line : List LineSymbol) (s : State) : Host.Outcome State Fault Refusal :=
  s.perform (fun h => h.messageFrame p line)

/-- The meaning of ACK_RECEIVED. -/
def execAckReceived (p : Port) (line : List LineSymbol) (s : State) : Host.Outcome State Fault Refusal :=
  s.perform (fun h => h.ackFrame p line)

/-- The meaning of NAK_RECEIVED. -/
def execNakReceived (p : Port) (line : List LineSymbol) (s : State) : Host.Outcome State Fault Refusal :=
  s.perform (fun h => h.nakFrame p line)

/-- The meaning of ALIGN_RECEIVED. -/
def execAlignReceived (p : Port) (line : List LineSymbol) (s : State) : Host.Outcome State Fault Refusal :=
  s.perform (fun h => h.alignFrame p line)

/-- The meaning of READY_RECEIVED. -/
def execReadyReceived (p : Port) (line : List LineSymbol) (s : State) : Host.Outcome State Fault Refusal :=
  s.perform (fun h => h.readyFrame p line)

/-- The meaning of CORRUPT_FRAME. -/
def execCorruptFrame (p : Port) (line : List LineSymbol) (s : State) : Host.Outcome State Fault Refusal :=
  s.perform (fun h => h.corruptFrame p line)

/-- The meaning of TRAINING_TIMER_EXPIRY. -/
def execTrainingTimerExpiry (p : Port) (s : State) : Host.Outcome State Fault Refusal :=
  s.perform (fun h => h.trainingExpiry p)

/-- The meaning of ALIGN_SENT. -/
def execAlignSent (p : Port) (s : State) : Host.Outcome State Fault Refusal := s.perform (fun h => h.sendAlign p)

/-- The meaning of READY_SENT. -/
def execReadySent (p : Port) (s : State) : Host.Outcome State Fault Refusal := s.perform (fun h => h.sendReady p)

/-- The meaning of ACK_SENT. -/
def execAckSent (p : Port) (s : State) : Host.Outcome State Fault Refusal := s.perform (fun h => h.sendAck p)

/-- The meaning of MESSAGE_FRAME_SENT. -/
def execMessageFrameSent (p : Port) (s : State) : Host.Outcome State Fault Refusal :=
  s.perform (fun h => h.sendMessage p)

/-- The meaning of FRAME_RESENT. -/
def execFrameResent (p : Port) (s : State) : Host.Outcome State Fault Refusal := s.perform (fun h => h.resendFrame p)

/-- The meaning of REPLAY_TIMER_EXPIRY. -/
def execReplayTimerExpiry (p : Port) (s : State) : Host.Outcome State Fault Refusal :=
  s.perform (fun h => h.replayExpiry p)

/-- The meaning of ROOM_TIMER_EXPIRY. -/
def execRoomTimerExpiry (p : Port) (s : State) : Host.Outcome State Fault Refusal := s.perform (fun h => h.roomExpiry p)

end Sys2Proof.Machine
end

