-- ==== Sys2Proof/Machine/Messages.lean ====
section
/-! DEFINITION. MALFORMED_MESSAGE, QUERY, PLACE_REPLY and PLACE_NOTICE (chapter 9). -/

namespace Sys2Proof.Machine

/-! ### A message that is no request (R156) -/

/-- MALFORMED_MESSAGE: the tag set is not consulted and not changed (R156). -/
def Hub.takeMalformed (h : Hub) (p : Port) : Option Hub :=
  match h.takeHead p with
  | some (m, h) =>
    match parseRequest m with
    | none => some (h.refuse p (malformedTag m) .malformed 0)
    | some _ => none
  | none => none

/-! ### Query records (R163, R164) -/

/-- One byte of a record. -/
def byteOf (n : Nat) : Byte := BitVec.ofNat 8 n

/-- The bits of a list of flags, the first the least significant. -/
def bitsOf : List Bool → Nat
  | [] => 0
  | b :: bs => (if b then 1 else 0) + 2 * bitsOf bs

/-- The HUB record (R163). -/
def Hub.hubRecord (h : Hub) : List Byte :=
  let votes := bitsOf h.rest.votes.toList
  let links := h.links.p0.state.code + 4 * h.links.p1.state.code + 16 * h.links.p2.state.code +
    64 * h.links.p3.state.code
  [byteOf 0, byteOf h.channel.code, byteOf h.upkeep.debt, byteOf h.upkeep.level.code,
    byteOf (holderCode h.config.holder), byteOf votes, byteOf links, byteOf h.table.length,
    byteOf (h.leases.slots.filter (fun s => s.lease.isSome)).length, 0, 0, 0]

/-- The record of a window, if it is enabled (R163). -/
def windowRecord (index : Nat) : Option Window → List Byte
  | some w =>
    [byteOf index, byteOf (bitsOf [w.read, w.write]), 0, 0] ++ leBytes 4 w.base ++ leBytes 4 w.size ++ leBytes 4 w.target
  | none => []

/-- The PORT record (R163). -/
def Hub.portRecord (h : Hub) (n : Port) : List Byte :=
  let ws := h.windows.get n
  let m := h.layer n
  [byteOf 1, byteOf n.val, byteOf (h.config.committed.quota.get n), byteOf (h.occupied n),
    byteOf (h.config.committed.conflictAction.get n).code, byteOf m.fences.length,
    byteOf (ws.toList.filter Option.isSome).length, 0] ++
    leBytes 4 m.taken ++ leBytes 4 m.completed ++ leBytes 4 m.refusals ++
    windowRecord 0 ws.p0 ++ windowRecord 1 ws.p1 ++ windowRecord 2 ws.p2 ++ windowRecord 3 ws.p3

/-- The time left to a deadline or an expiry, 0–65535 ms (R99). -/
def Hub.timeLeft (h : Hub) (t : Nat) : Nat := min (t - h.hubTime) 65535

/-- The drain set as bits, bit k for entry index k (R164). -/
def drainBits (drain : List Index) : Nat := bitsOf ((List.finRange 32).map (fun i => drain.contains i))

/-- The record of a slot, if it is occupied (R164). -/
def Hub.leaseRecord (h : Hub) (s : LeaseSlot) : List Byte :=
  match s.lease with
  | none => []
  | some l =>
    let (granted, time, drain) := match l.phase with
      | .granting _ deadline drain _ => (0, h.timeLeft deadline, drainBits drain)
      | .granted expiry => (1, h.timeLeft expiry, 0)
    [byteOf s.id.val, s.generation, byteOf l.owner.val, byteOf (l.mode.code + 2 * granted)] ++
      leBytes 3 (l.base / 256) ++ leBytes 3 (l.length / 256) ++ leBytes 2 time ++ leBytes 4 drain

/-- The LEASES record (R164). -/
def Hub.leasesRecord (h : Hub) : List Byte :=
  [byteOf 2, byteOf (h.leases.slots.filter (fun s => s.lease.isSome)).length] ++
    h.leases.slots.flatMap h.leaseRecord

/-- The record of a waiting request (R164). -/
def Hub.waitRecord (h : Hub) (w : Waiting) : List Byte :=
  [byteOf w.port.val, w.tag, byteOf w.mode.code, 0] ++ leBytes 3 (w.base / 256) ++ leBytes 3 (w.length / 256) ++
    leBytes 2 w.duration ++ leBytes 2 (h.timeLeft w.deadline) ++ [0, 0]

/-- The WAITS record (R164). -/
def Hub.waitsRecord (h : Hub) : List Byte :=
  [byteOf 3, byteOf h.leases.waits.length] ++ h.leases.waits.flatMap h.waitRecord

/-- The record of bank `b` (R56, R164). -/
def Hub.bankRecord (h : Hub) (b : Nat) (k : Bank) : List Byte :=
  let candidate := h.candidate b
  [byteOf k.state.code, byteOf (bitsOf [k.row.isSome, k.closeRequested, candidate.isSome])] ++
    leBytes 2 (k.row.getD 0) ++
    [byteOf (h.eligible b).length, byteOf (match candidate with | some e => e.index.val | none => 0xFF), 0, 0]

/-- The records of the banks from bank `b` on. -/
def Hub.bankRecordsFrom (h : Hub) (b : Nat) : List Bank → List Byte
  | [] => []
  | k :: ks => h.bankRecord b k ++ h.bankRecordsFrom (b + 1) ks

/-- The BANKS record (R164). -/
def Hub.banksRecord (h : Hub) : List Byte :=
  [byteOf 4, byteOf h.scheduler.banks.length] ++ h.bankRecordsFrom 0 h.scheduler.banks

/-- The COUNTERS record (R163). -/
def Hub.countersRecord (h : Hub) : List Byte :=
  let (present, port, addr) := match h.check.damage with
    | some d => (1, d.port.val, d.addr)
    | none => (0, 0, 0)
  [byteOf 5, byteOf present, byteOf port, 0] ++ leBytes 4 addr ++
    leBytes 4 h.scheduler.hits ++ leBytes 4 h.scheduler.misses ++ leBytes 4 h.check.corrected ++
    leBytes 4 h.check.damaged ++ leBytes 4 h.upkeep.completed ++ leBytes 4 h.upkeep.overruns ++
    leBytes 4 h.leases.grants ++ leBytes 4 h.leases.lapses ++ leBytes 4 0

/-- The ids and staged values of the parameters whose staged value differs from the committed one, ascending (R134). -/
def ConfigUnit.stagedPairs (u : ConfigUnit) : List (Nat × Nat) :=
  paramIds.filterMap (fun id =>
    if u.staged.valueOf id = u.committed.valueOf id then none
    else (u.staged.valueOf id).map (fun v => (id, v)))

/-- The STAGED record (R163). -/
def Hub.stagedRecord (h : Hub) : List Byte :=
  let pairs := h.config.stagedPairs
  [byteOf 6, byteOf pairs.length, 0, 0] ++ pairs.flatMap (fun x => [byteOf x.1, 0] ++ leBytes 2 x.2)

/-- The record of a subject (R154, R163, R164). -/
def Hub.record (h : Hub) (subject port : Nat) : List Byte :=
  match subject with
  | 0 => h.hubRecord
  | 1 => h.portRecord (Fin.ofNat 4 port)
  | 2 => h.leasesRecord
  | 3 => h.waitsRecord
  | 4 => h.banksRecord
  | 5 => h.countersRecord
  | _ => h.stagedRecord

/-- A QUERY's subject is above 6, its PORT subject names a port above 3, or the byte is reserved and not zero (R154). -/
def queryMalformed (subject port : Nat) : Bool :=
  decide (6 < subject) || (subject == 1 && decide (3 < port)) || (subject != 1 && port != 0)

/-- A QUERY that has been taken (R162). -/
def Hub.answerQuery (h : Hub) (p : Port) (tag : Byte) (subject port : Nat) : Hub :=
  if queryMalformed subject port then h.refuse p tag .malformed 0
  else if h.tagInUse p tag then h.refuse p tag .tagInUse 0
  else h.answer p ⟨tag, .ok, 0, h.record subject port⟩

/-- QUERY (R162). -/
def Hub.takeQuery (h : Hub) (p : Port) : Option Hub :=
  match h.takeRequest p with
  | some (.query tag subject port, h) => some (h.answerQuery p tag subject port)
  | _ => none

/-! ### The outbound arbiter (R159) -/

/-- The reply of a DONE entry (R16, R145, R148). -/
def Entry.reply (e : Entry) : Reply :=
  ⟨e.tag, e.status.status, e.flagged, if e.kind = .read then e.buffer.flatMap (fun w => leBytes 8 w.toNat) else []⟩

/-- The reply that a pending reply places; that of a DONE entry is taken from its entry. -/
def Hub.replyOf (h : Hub) : PendingReply → Option Reply
  | .entry _ i => (h.entry i).map Entry.reply
  | .fence tag => some ⟨tag, .ok, 0, []⟩
  | .aborted tag detail => some ⟨tag, .aborted, detail, []⟩
  | .leaseGrant tag handle duration => some ⟨tag, .ok, 0, handle.bytes ++ leBytes 2 duration⟩
  | .leaseEnd tag status detail => some ⟨tag, status, detail, []⟩
  | .wake tag => some ⟨tag, .ok, 0, []⟩
  | .commit tag detail => some ⟨tag, .ok, detail, []⟩
  | .hubReset tag => some ⟨tag, .ok, 0, []⟩

/-- A fence leaves the fence list, and the fences-ahead count of every entry of its port held by FENCE falls by one; an
entry whose count reaches 0 loses FENCE (R19). -/
def Hub.fenceLeaves (h : Hub) (p : Port) (tag : Byte) : Hub :=
  let h := h.onMessages p (fun m => { m with fences := m.fences.filter (fun f => f.tag != tag) })
  { h with table := h.table.map (fun e =>
      if e.port = p then { e with holds := { e.holds with fencesAhead := e.holds.fencesAhead - 1 } }.promote else e) }

/-- The placement effects of a reply's owner (R17, R19). -/
def Hub.placed (h : Hub) (p : Port) : PendingReply → Hub
  | .entry _ i => (h.onMessages p (fun m => { m with completed := rise32 m.completed })).freeEntries [i]
  | .fence tag => h.fenceLeaves p tag
  | .aborted _ _ | .leaseGrant _ _ _ | .leaseEnd _ _ _ | .wake _ | .commit _ _ | .hubReset _ => h

/-- PLACE_REPLY (R158, R159): the reply at the head of the pending reply list joins the outbound list, which has a free
place; it leaves the list and its tag the tag set, and its owner takes its placement effects. -/
def Hub.placeReply (h : Hub) (p : Port) : Option Hub :=
  match (h.layer p).replies with
  | [] => none
  | r :: rest =>
    if (h.link p).outbound.length < 16 then
      (h.replyOf r).map (fun reply =>
        ((h.place p (.reply reply)).onMessages p
          (fun m => { m.dropTags [r.tag] with replies := rest })).placed p r)
    else none

/-- PLACE_NOTICE (R159, R161): with no reply pending and a place free, the first record present becomes a NOTICE. -/
def Hub.placeNotice (h : Hub) (p : Port) : Option Hub :=
  let m := h.layer p
  if (h.link p).outbound.length < 16 ∧ m.replies = [] then
    match m.notices.first with
    | some k =>
      match m.notices.get k with
      | some r => some ((h.place p (.notice k r)).onMessages p (fun m => { m with notices := m.notices.put k none }))
      | none => none
    | none => none
  else none

/-! ### Meanings -/

/-- The meaning of MALFORMED_MESSAGE. -/
def execMalformedMessage (p : Port) (s : State) : Host.Outcome State Fault Refusal :=
  s.perform (fun h => h.takeMalformed p)

/-- The meaning of QUERY. -/
def execQuery (p : Port) (s : State) : Host.Outcome State Fault Refusal := s.perform (fun h => h.takeQuery p)

/-- The meaning of PLACE_REPLY. -/
def execPlaceReply (p : Port) (s : State) : Host.Outcome State Fault Refusal := s.perform (fun h => h.placeReply p)

/-- The meaning of PLACE_NOTICE. -/
def execPlaceNotice (p : Port) (s : State) : Host.Outcome State Fault Refusal := s.perform (fun h => h.placeNotice p)

end Sys2Proof.Machine
end

