-- ==== Sys2Proof/Machine/ResetLine.lean ====
section
/-! DEFINITION. The reset line (chapter 11). -/

namespace Sys2Proof.Machine

/-- The meaning of RESET_LINE_ASSERTED (R182): every item of the hub is lost, work in progress is cut off, the links send
idle and nothing is issued. The memory's contents become undefined. A line already low stays low. -/
def execResetLineAsserted (s : State) : Host.Outcome State Fault Refusal :=
  if s.hub.resetLow then .next s else .next { s with hub := Hub.inReset (s.hub.dram.epoch + 1) }

/-- The meaning of RESET_LINE_RELEASED (R182): every item takes its power-up value, and every link trains. A line that is
not low has no release. -/
def execResetLineReleased (s : State) : Host.Outcome State Fault Refusal :=
  if s.hub.resetLow then .next { s with hub := Hub.powerUp s.hub.dram.epoch } else .next s

end Sys2Proof.Machine
end

