-- ==== Sys2Proof/Machine/RestWake.lean ====
section
/-! DEFINITION. REST and WAKE (chapter 5). The changes of the channel that follow from a vote stand in
`Hub.settle`. -/

namespace Sys2Proof.Machine

/-- A REST that has been taken (R103). -/
def Hub.voteRest (h : Hub) (p : Port) (tag : Byte) (reserved : Nat) : Hub :=
  if reserved ≠ 0 then h.refuse p tag .malformed 0
  else if h.tagInUse p tag then h.refuse p tag .tagInUse 0
  else { h with rest := { h.rest with votes := h.rest.votes.set p true } }.accept p tag

/-- REST (R103). -/
def Hub.takeRest (h : Hub) (p : Port) : Option Hub :=
  match h.takeRequest p with
  | some (.rest tag reserved, h) => some (h.voteRest p tag reserved)
  | _ => none

/-- A WAKE taken in a channel state is answered at once (R104's table, R157). DEDUCED (log entry 13): R130, which speaks of a
WAKE deferred to the end of bring-up and refers to R104, is read of the WAKEs that R104 has deferred. R104 is the rule of the
block that owns the request and the list (R156), where behaviour is told (scope file, Conventions). -/
def answersWake (c : Channel) : Bool :=
  match c with
  | .serving => true
  | .unready => true
  | .bringup => true
  | .entering => false
  | .resting => false
  | .leaving => false

/-- A WAKE that has been taken (R104): answered at once, or deferred until the channel is SERVING. -/
def Hub.voteWake (h : Hub) (p : Port) (tag : Byte) (reserved : Nat) : Hub :=
  if reserved ≠ 0 then h.refuse p tag .malformed 0
  else if h.tagInUse p tag then h.refuse p tag .tagInUse 0
  else if answersWake h.channel then (h.wantMemory p).accept p tag
  else
    let h := (h.wantMemory p).addTag p tag
    { h with rest := { h.rest with wakes := h.rest.wakes ++ [(p, tag)] } }

/-- WAKE (R104). -/
def Hub.takeWake (h : Hub) (p : Port) : Option Hub :=
  match h.takeRequest p with
  | some (.wake tag reserved, h) => some (h.voteWake p tag reserved)
  | _ => none

/-- The meaning of REST. -/
def execRest (p : Port) (s : State) : Host.Outcome State Fault Refusal := s.perform (fun h => h.takeRest p)

/-- The meaning of WAKE. -/
def execWake (p : Port) (s : State) : Host.Outcome State Fault Refusal := s.perform (fun h => h.takeWake p)

end Sys2Proof.Machine
end

