-- ==== Sys2Proof/Machine/Dispatch.lean ====
section
/-! DEFINITION. The meaning of every command: one arm per row of the opcode table, in its order. -/

namespace Sys2Proof.Machine

/-- The effect of a command on everything but the queue. -/
def exec (i : Instr) (s : State) : Host.Outcome State Fault Refusal :=
  match i with
  | .read p => Sys2Proof.Machine.execRead p s
  | .write p => Sys2Proof.Machine.execWrite p s
  | .fence p => Sys2Proof.Machine.execFence p s
  | .leaseTake p => Sys2Proof.Machine.execLeaseTake p s
  | .leaseDrop p => Sys2Proof.Machine.execLeaseDrop p s
  | .leaseRenew p => Sys2Proof.Machine.execLeaseRenew p s
  | .rest p => Sys2Proof.Machine.execRest p s
  | .wake p => Sys2Proof.Machine.execWake p s
  | .query p => Sys2Proof.Machine.execQuery p s
  | .configSet p => Sys2Proof.Machine.execConfigSet p s
  | .configCommit p => Sys2Proof.Machine.execConfigCommit p s
  | .windowSet p => Sys2Proof.Machine.execWindowSet p s
  | .handover p => Sys2Proof.Machine.execHandover p s
  | .claim p => Sys2Proof.Machine.execClaim p s
  | .hubReset p => Sys2Proof.Machine.execHubReset p s
  | .malformedMessage p => Sys2Proof.Machine.execMalformedMessage p s
  | .placeReply p => Sys2Proof.Machine.execPlaceReply p s
  | .placeNotice p => Sys2Proof.Machine.execPlaceNotice p s
  | .messageFrameReceived p line => Sys2Proof.Machine.execMessageFrameReceived p line s
  | .ackReceived p line => Sys2Proof.Machine.execAckReceived p line s
  | .nakReceived p line => Sys2Proof.Machine.execNakReceived p line s
  | .alignReceived p line => Sys2Proof.Machine.execAlignReceived p line s
  | .readyReceived p line => Sys2Proof.Machine.execReadyReceived p line s
  | .corruptFrame p line => Sys2Proof.Machine.execCorruptFrame p line s
  | .trainingTimerExpiry p => Sys2Proof.Machine.execTrainingTimerExpiry p s
  | .alignSent p => Sys2Proof.Machine.execAlignSent p s
  | .readySent p => Sys2Proof.Machine.execReadySent p s
  | .ackSent p => Sys2Proof.Machine.execAckSent p s
  | .messageFrameSent p => Sys2Proof.Machine.execMessageFrameSent p s
  | .frameResent p => Sys2Proof.Machine.execFrameResent p s
  | .replayTimerExpiry p => Sys2Proof.Machine.execReplayTimerExpiry p s
  | .roomTimerExpiry p => Sys2Proof.Machine.execRoomTimerExpiry p s
  | .resetLineAsserted => Sys2Proof.Machine.execResetLineAsserted s
  | .resetLineReleased => Sys2Proof.Machine.execResetLineReleased s
  | .rowOpen b => Sys2Proof.Machine.execRowOpen b s
  | .rowClose b => Sys2Proof.Machine.execRowClose b s
  | .bankOpened b => Sys2Proof.Machine.execBankOpened b s
  | .bankClosed b => Sys2Proof.Machine.execBankClosed b s
  | .openMarkPassed b => Sys2Proof.Machine.execOpenMarkPassed b s
  | .writeRecoveryMarkPassed b => Sys2Proof.Machine.execWriteRecoveryMarkPassed b s
  | .colRead n => Sys2Proof.Machine.execColRead n s
  | .colWrite n => Sys2Proof.Machine.execColWrite n s
  | .colReadComplete flips => Sys2Proof.Machine.execColReadComplete flips s
  | .colWriteComplete => Sys2Proof.Machine.execColWriteComplete s
  | .allClose => Sys2Proof.Machine.execAllClose s
  | .allCloseComplete => Sys2Proof.Machine.execAllCloseComplete s
  | .modeLoad => Sys2Proof.Machine.execModeLoad s
  | .modeLoadComplete => Sys2Proof.Machine.execModeLoadComplete s
  | .upkeep => Sys2Proof.Machine.execUpkeep s
  | .upkeepComplete => Sys2Proof.Machine.execUpkeepComplete s
  | .retainEnter => Sys2Proof.Machine.execRetainEnter s
  | .retainExit => Sys2Proof.Machine.execRetainExit s
  | .retainExitComplete => Sys2Proof.Machine.execRetainExitComplete s
  | .intervalTimerExpiry => Sys2Proof.Machine.execIntervalTimerExpiry s
  | .leaseExpiry id => Sys2Proof.Machine.execLeaseExpiry id s
  | .waitDeadline p tag => Sys2Proof.Machine.execWaitDeadline p tag s
  | .settleEnd => Sys2Proof.Machine.execSettleEnd s
  | .commitCopy => Sys2Proof.Machine.execCommitCopy s
  | .resetEvent => Sys2Proof.Machine.execResetEvent s

end Sys2Proof.Machine
end

