-- ==== Sys2Proof/Machine/Step.lean ====
section
/-! DEFINITION. One step of the machine: the command at the front of the queue, or the passing of one period. -/

namespace Sys2Proof.Machine

/-- One step: the command at the front of the queue is run with the rest of the queue; on an empty queue one memory clock
period passes (log entry 2). -/
def step (s : State) : Host.Outcome State Fault Refusal :=
  match s.pending with
  | [] => .next { s with hub := s.hub.tick }
  | c :: rest => exec c { s with pending := rest }

/-- The state with the command that a word spells at the front of its queue. No word spells one (`decodeTableWord`), so no
word changes the state (log entry 7). -/
def State.withFetchWord (s : State) (nbits w : Nat) : State :=
  match decodeTableWord nbits w with
  | some c => { s with pending := c :: s.pending }
  | none => s

end Sys2Proof.Machine
end

