-- ==== Sys2Proof/Safety.lean ====
section
/-! DEFINITION. What a safe run is: the laws that the spec says the hub keeps, each as a condition on a hub, and the
conditions on a state under which a command takes effect. The statements use these terms. -/

namespace Sys2Proof.Safety

open Sys2Proof.Machine

/-! ### Laws of the units -/

/-- The memory is in its canonical form. -/
def MemoryLaw (h : Hub) : Prop := h.dram.wf = true

/-- The debt lies between 0 and 12 (R59), and the level is that of R61's table, or CRITICAL while the debt is 8 or more. -/
def DebtLaw (h : Hub) : Prop :=
  h.upkeep.debt ≤ 12 ∧
    (h.upkeep.level = urgencyOf h.upkeep.debt ∨ (h.upkeep.level = .critical ∧ 8 ≤ h.upkeep.debt))

/-- Each unit presents to the scheduler exactly what its rules give for the present state (R63, R106, R109, R110, R124,
R125, R127, R128). -/
def ItemsLaw (h : Hub) : Prop :=
  h.upkeep.items = h.upkeepItems ∧ h.rest.items = h.restItems ∧ h.config.items = h.configItems ∧
    h.config.bringupItems = h.bringupItems

/-- The port that holds the control role has its link UP (R116); nothing stands on the inbound list of a port that is not
UP (R177, R180). -/
def RoleLaw (h : Hub) : Prop :=
  (∀ p, h.config.holder = some p → (h.link p).state = .up) ∧
    ∀ p, (h.link p).state ≠ .up → (h.link p).inbound = []

/-- The lists of the ports and the wait list stay within their sizes (R20, R81, R159, R170, R172), and a far-end room is
at most 4 (R172). -/
def BoundsLaw (h : Hub) : Prop :=
  (∀ p, (h.link p).inbound.length ≤ 4 ∧ (h.link p).outbound.length ≤ 16 ∧ (h.link p).replay.length ≤ 12 ∧
      (h.link p).farRoom ≤ 4 ∧ (h.layer p).fences.length ≤ 4) ∧
    h.leases.waits.length ≤ 8

/-- No two occupied entries have one index (R3). -/
def IndexLaw (h : Hub) : Prop := (h.table.map Entry.index).Nodup

/-- Every port occupies at most its QUOTA of entries, and the quotas in force, and those that a pending commit will put in
force, sum to 32 or less (R4, R123). -/
def QuotaLaw (h : Hub) : Prop :=
  IndexLaw h ∧ (∀ p, h.occupied p ≤ h.config.committed.quota.get p) ∧ h.config.committed.quotaSum ≤ 32 ∧
    ∀ c f g, h.config.change = some c → c.kind = .commit f g → h.config.staged.quotaSum ≤ 32

/-- At most one entry is ACTIVE without an aborting mark (R46). -/
def OneActiveLaw (h : Hub) : Prop := IndexLaw h ∧ (h.table.filter Entry.activeUnmarked).length ≤ 1

/-- The window `w` of port `p` is enabled with the record `r`. -/
def Enabled (h : Hub) (p w : Port) (r : Window) : Prop := (h.windows.get p).get w = some r

/-- Every enabled window lies inside the committed memory size, and inside that of a pending commit (R142). -/
def WindowsInside (h : Hub) : Prop :=
  (∀ p w r, Enabled h p w r → r.target + r.size ≤ h.config.committed.memorySize) ∧
    ∀ c f g, h.config.change = some c → c.kind = .commit f g →
      ∀ p w r, Enabled h p w r → r.target + r.size ≤ h.config.staged.memorySize

/-- Two enabled windows of one port never overlap in port space (R136). -/
def WindowsApart (h : Hub) : Prop :=
  ∀ p v w r q, v ≠ w → Enabled h p v r → Enabled h p w q → rangesOverlap r.base r.size q.base q.size = false

/-- While an UPKEEP is in flight, every bank is CLOSED and no burst is in flight (R35, R46). -/
def UpkeepLaw (h : Hub) : Prop :=
  h.scheduler.inFlight .upkeep = true → h.scheduler.allClosed = true ∧ h.scheduler.burst = none

/-- While the channel is RESTING every bank is CLOSED, the debt is 0 and the interval timer is stopped; outside SERVING no
entry is QUEUED or ACTIVE, and a HELD one has the CHANNEL hold (R52, R107). -/
def RestingLaw (h : Hub) : Prop :=
  ItemsLaw h ∧
    (h.channel = .resting → h.scheduler.allClosed = true ∧ h.upkeep.debt = 0 ∧ h.upkeep.timer = none) ∧
    (h.channel ≠ .serving → ∀ e ∈ h.table, e.phase ≠ .queued ∧ e.phase ≠ .active ∧
      (e.phase = .held → e.holds.channel = true))

/-- A lease stands in some slot. -/
def Standing (h : Hub) (l : Lease) : Prop := ∃ s ∈ h.leases.slots, s.lease = some l

/-- Two leases of different ports overlap only if both are GUARD (R80). -/
def LeasesApart (h : Hub) : Prop :=
  ∀ k l, Standing h k → Standing h l → k.owner ≠ l.owner → rangesOverlap k.base k.length l.base l.length = true →
    k.mode = .guarded ∧ l.mode = .guarded

/-! ### Laws of the transaction table -/

/-- The index of the entry whose reply a pending reply is. -/
def entryIndex : PendingReply → Option Index
  | .entry _ i => some i
  | _ => none

/-- The entries agree with the burst in flight and with the pending replies: the burst in flight serves an ACTIVE entry of
its kind, only that entry can carry the aborting mark (R21), each pending reply of an entry belongs to a DONE entry of its
port and tag, and no port has two for one entry (R16, R17). -/
structure EntryLaw (h : Hub) : Prop where
  indices : IndexLaw h
  burst : ∀ x, h.scheduler.burst = some x → ∃ e ∈ h.table, e.index = x.entry ∧ e.phase = .active ∧ e.kind = x.kind
  aborting : ∀ e ∈ h.table, e.aborting ≠ none →
    e.phase = .active ∧ ∃ x, h.scheduler.burst = some x ∧ x.entry = e.index
  replies : ∀ p t i, PendingReply.entry t i ∈ (h.layer p).replies →
    ∃ e ∈ h.table, e.index = i ∧ e.port = p ∧ e.tag = t ∧ e.phase = .done
  once : ∀ p, ((h.layer p).replies.filterMap entryIndex).Nodup

/-- A HELD entry has ORDER on the youngest unfinished entry ahead of it that is in hazard with it, if there is one, and an
entry that is QUEUED or ACTIVE has none (R9, R13, R14). -/
def OrderLaw (h : Hub) : Prop :=
  ∀ ahead e behind, h.table = ahead ++ e :: behind →
    (e.phase = .held → e.holds.order = predecessorAmong ahead e) ∧
      (e.phase = .queued ∨ e.phase = .active → predecessorAmong ahead e = none)

/-- The slots of the lease table stand in order of id, 0–15 (R73). -/
def SlotsLaw (h : Hub) : Prop := h.leases.slots.map LeaseSlot.id = List.finRange 16

/-- Every entry of another port that conflicts with a GRANTED lease is HELD with LEASE; one that conflicts with a GRANTING
lease is too, or stands in the lease's drain set (R82, R84). -/
def GrantLaw (h : Hub) : Prop :=
  SlotsLaw h ∧
    ∀ l, Standing h l → ∀ e ∈ h.table, l.conflictsWith e.port e.kind e.addr e.length = true →
      (e.phase = .held ∧ e.holds.lease = true) ∨
        ∃ duration deadline drain tag, l.phase = .granting duration deadline drain tag ∧ e.index ∈ drain

/-- A HELD entry has LEASE only while some lease in the table conflicts with it (R11, R88). -/
def LeaseHoldLaw (h : Hub) : Prop :=
  SlotsLaw h ∧
    ∀ e ∈ h.table, e.phase = .held → e.holds.lease = true →
      ∃ l, Standing h l ∧ l.conflictsWith e.port e.kind e.addr e.length = true

/-- The slots stand in order (R73), and every waiting request is blocked: by a lease in the table, by the want of a free
slot, or by a request of another port ahead of it (R79, R89). -/
def WaitLaw (h : Hub) : Prop :=
  SlotsLaw h ∧
    ∀ earlier w later, h.leases.waits = earlier ++ w :: later →
      (∃ l, Standing h l ∧ l.conflictsWithRequest w.port w.mode w.base w.length = true) ∨
        (∀ s ∈ h.leases.slots, s.lease ≠ none) ∨
        ∃ v ∈ earlier, v.port ≠ w.port ∧ rangesOverlap v.base v.length w.base w.length = true

/-! ### Laws of links, bring-up, bursts, drains and tags -/

/-- The sequences on a replay list are consecutive in sending order and end before the send sequence (R172). Outside UP the
replay list is empty and the full wait clear (R177, R180); in the full wait the far-end room is 0 (R173, R174); the room timer
runs only with an empty replay list, a message on the outbound list and no room (R175). -/
def LinkLaw (h : Hub) : Prop :=
  ∀ p, (let l := h.link p
    (∀ older f newer, l.replay = older ++ f :: newer → f.seq + BitVec.ofNat 8 newer.length + 1 = l.sendSeq) ∧
      (l.state ≠ .up → l.replay = [] ∧ l.fullWait = false) ∧
      (l.fullWait = true → l.farRoom = 0) ∧
      (l.roomTimer ≠ none → l.replay = [] ∧ l.outbound ≠ [] ∧ l.farRoom = 0))

/-- A bring-up record stands only in BRINGUP, where no change is pending (R125, R129, R130). -/
def BringupLaw (h : Hub) : Prop :=
  ItemsLaw h ∧ (h.config.bringup ≠ none → h.channel = .bringup ∧ h.config.change = none)

/-- The burst in flight is to a bank that is OPEN at the row of the entry it serves (R31, R46), and none is in flight with an
ALL_CLOSE, which stands only in BRINGUP (R35, R127). -/
def BurstLaw (h : Hub) : Prop :=
  (h.scheduler.inFlight .allClose = true → h.channel = .bringup ∧ h.scheduler.burst = none) ∧
    ∀ x, h.scheduler.burst = some x → ∃ e ∈ h.table, e.index = x.entry ∧ e.bank = x.bank ∧
      ∃ k, h.scheduler.banks[x.bank]? = some k ∧ k.state = .opened ∧ k.row = some e.row

/-- A GRANTING lease drains something, and every index in its drain set is that of an occupied entry (R83, R84). -/
def DrainLaw (h : Hub) : Prop :=
  SlotsLaw h ∧
    ∀ l, Standing h l → ∀ duration deadline drain tag, l.phase = .granting duration deadline drain tag →
      drain ≠ [] ∧ ∀ i ∈ drain, ∃ e ∈ h.table, e.index = i

/-- The tag of a GRANTING lease of port `p`. -/
def grantingTag (p : Port) (x : LeaseSlot) : Option Byte :=
  match x.lease with
  | some ⟨owner, _, _, _, .granting _ _ _ tag⟩ => if owner = p then some tag else none
  | _ => none

/-- The tag of a pending reply whose request nothing else of the hub holds any more: not that of an entry or a fence. -/
def ownTag : PendingReply → Option Byte
  | .entry _ _ | .fence _ => none
  | .aborted t _ | .leaseGrant t _ _ | .leaseEnd t _ _ | .wake t | .commit t _ | .hubReset t => some t

/-- The tags of the outstanding requests of port `p` (R156, R158): its entries but for one that its teardown has left
aborting (R25), its fences, waiting lease requests, GRANTING leases and deferred WAKEs, the commit or HUB_RESET that is
pending or in bring-up, and the requests of which only the reply is pending. -/
def outstanding (h : Hub) (p : Port) : List Byte :=
  (h.table.filter (fun e => e.port == p && e.aborting != some .torn)).map Entry.tag ++
    (h.layer p).fences.map Fence.tag ++
    (h.layer p).replies.filterMap ownTag ++
    (h.leases.waits.filter (fun w => w.port == p)).map Waiting.tag ++
    h.leases.slots.filterMap (grantingTag p) ++
    (h.rest.wakes.filter (fun w => w.1 == p)).map Prod.snd ++
    (match h.config.change with
      | some c => if c.port = p ∧ c.torn = false then [c.tag] else []
      | none => []) ++
    (match h.config.bringup with
      | some r => if r.port = p ∧ r.torn = false then [r.tag] else []
      | none => [])

/-- No two outstanding requests of one port carry one tag, and a port's tag set is the tags of its outstanding requests; the
pending reply list holds at most one reply for each tag (R158), and the reply of a fence only for a fence on the list whose
watch set is empty (R19). -/
def TagLaw (h : Hub) : Prop :=
  ∀ p, (outstanding h p).Nodup ∧ (∀ t, t ∈ (h.layer p).tags ↔ t ∈ outstanding h p) ∧
    ((h.layer p).replies.map PendingReply.tag).Nodup ∧
    ∀ t, PendingReply.fence t ∈ (h.layer p).replies → ∃ f ∈ (h.layer p).fences, f.tag = t ∧ f.watch = []

/-- Every step that answers a next state keeps a law. -/
def KeptByEveryStep (law : Hub → Prop) : Prop :=
  ∀ s t : State, law s.hub → step s = .next t → law t.hub

/-! ### When a command takes effect -/

/-- The hub is out of reset. -/
def Running (s : State) : Prop := s.hub.resetLow = false

/-- The arbiter of port `p` serves its third claimant, and the message `m` stands at the head of the inbound list with
`rest` behind it (R156, R159). -/
structure Taking (s : State) (p : Port) (m : List Byte) (rest : List (List Byte)) : Prop where
  running : Running s
  place : (s.hub.link p).outbound.length < 16
  noReply : (s.hub.layer p).replies = []
  noNotice : (s.hub.layer p).notices = NoticeSet.empty
  head : (s.hub.link p).inbound = m :: rest

/-- The state whose hub is `h` after all that ends an event (R63, R105, R175). -/
def after (s : State) (h : Hub) : Host.Outcome State Fault Refusal := .next { s with hub := h.settle }

/-- The link of port `p` is UP in a hub that is out of reset. -/
def LinkUp (s : State) (p : Port) : Prop := Running s ∧ (s.hub.link p).state = .up

/-- The symbols `line` make a frame event at port `p`, which hands over `f` and leaves the receiving side at `r` (R181). -/
def Hears (s : State) (p : Port) (line : List LineSymbol) (f : LineFrame) (r : Receiver) : Prop :=
  (s.hub.link p).receiver.hear line = some (f, r)

/-- The link of port `p` is in TRAINING in a hub that is out of reset. -/
def LinkTraining (s : State) (p : Port) : Prop := Running s ∧ (s.hub.link p).state = .training

/-- The link of port `p` has become UP with a far-end room: its items are at R167's values, and the port's vote is clear
(R102). -/
def linkUpWith (h : Hub) (p : Port) (room : Nat) : Hub :=
  { h with
    links := h.links.set p
      { h.link p with
        state := .up
        step := none
        farReady := false
        readySent := false
        trainingTimer := none
        expected := 0
        corrupt := 0
        nakMark := false
        ackOwed := none
        sendSeq := 0
        farRoom := room
        resend := none
        fullWait := false
        replayTimer := none
        roomTimer := none
        replays := 0 }
    rest := { h.rest with votes := h.rest.votes.set p false } }

/-! ### The tables of checks

Each table lists the conditions of a rule in the rule's order, with the status and the detail of each. -/

/-- The outcome of the first condition that holds. -/
def firstThatHolds : List (Bool × Status × Nat) → Option (Status × Nat)
  | [] => none
  | (true, r) :: _ => some r
  | (false, _) :: rest => firstThatHolds rest

/-- An enabled window of port `p` contains the range and grants the right (R137, R138). -/
def windowServes (h : Hub) (p : Port) (right : Window → Bool) (addr length : Nat) : Bool :=
  (h.windows.get p).toList.any (fun w => match w with
    | some r => decide (r.base ≤ addr) && decide (addr + length ≤ r.base + r.size) && right r
    | none => false)

/-- `a` is the physical address of `addr` through every enabled window of port `p` that contains the range (R137). -/
def TranslatesTo (h : Hub) (p : Port) (addr length a : Nat) : Prop :=
  ∀ w r, Enabled h p w r → r.base ≤ addr → addr + length ≤ r.base + r.size → a = r.target + (addr - r.base)

/-- A GUARD lease of the transaction's own port that a WRITE overlaps (R6). -/
def guardsOwn (l : Lease) (p : Port) (kind : Access) (a length : Nat) : Bool :=
  kind == .write && l.owner == p && l.mode == .guarded && rangesOverlap l.base l.length a length

/-- Some lease in the table meets a condition. -/
def someLease (h : Hub) (c : Lease → Bool) : Bool :=
  h.leases.slots.any (fun s => match s.lease with
    | some l => c l
    | none => false)

/-- The id of the first slot whose lease meets a condition; the slots stand in order of id (R73). -/
def firstId (h : Hub) (c : Lease → Bool) : Nat :=
  match h.leases.idsWhere c with
  | id :: _ => id.val
  | [] => 0

/-- The table of R5, with `a` the physical address of the range. -/
def admissionTable (h : Hub) (p : Port) (kind : Access) (tag : Byte) (words reserved addr a : Nat) :
    List (Bool × Status × Nat) :=
  let length := words * 8
  let quota := h.config.committed.quota.get p
  [(decide (words < 1 ∨ 32 < words ∨ addr % 8 ≠ 0 ∨ 0x100000000 < addr + length ∨ reserved ≠ 0), .malformed, 0),
    ((h.layer p).tags.contains tag, .tagInUse, 0),
    (h.channel == .unready, .notReady, 0),
    (!windowServes h p (fun r => r.grants kind) addr length, .noWindow, 0),
    (addr / 256 != (addr + length - 1) / 256, .span, 0),
    (decide (quota ≤ h.occupied p), .full, quota),
    (someLease h (fun l => guardsOwn l p kind a length) ||
        (someLease h (fun l => l.conflictsWith p kind a length) &&
          h.config.committed.conflictAction.get p == .reject),
      .locked, firstId h (fun l => l.conflictsWith p kind a length || guardsOwn l p kind a length))]

/-- A lease request is blocked (R79). -/
def blockedTake (h : Hub) (p : Port) (mode : LeaseMode) (base length : Nat) : Bool :=
  someLease h (fun l => l.conflictsWithRequest p mode base length) ||
    h.leases.slots.all (fun s => s.lease.isSome) ||
    h.leases.waits.any (fun w => w.port != p && rangesOverlap w.base w.length base length)

/-- 16 + the position of the first waiting request that meets a condition. -/
def firstWait (h : Hub) (c : Waiting → Bool) : Nat := 16 + (h.leases.waits.findIdx? c).getD 0

/-- The table of R79, with `base` the physical base of the range; a request for which none of its conditions holds is
placed or joins the wait list. -/
def leaseTable (h : Hub) (p : Port) (tag mode flags : Byte) (addr length duration limit base : Nat) :
    List (Bool × Status × Nat) :=
  let m := leaseModeOf mode
  let queue := flags.getLsbD 0
  let own (l : Lease) : Bool := l.owner == p && rangesOverlap l.base l.length base length
  let ownWait (w : Waiting) : Bool := w.port == p && rangesOverlap w.base w.length base length
  let conflict (l : Lease) : Bool := l.conflictsWithRequest p m base length
  let blocked := blockedTake h p m base length
  [(decide (1 < mode.toNat ∨ 1 < flags.toNat ∨ addr % 256 ≠ 0 ∨ length = 0 ∨ length % 256 ≠ 0 ∨
        0x100000000 < addr + length ∨ duration = 0 ∨ limit = 0), .malformed, 0),
    ((h.layer p).tags.contains tag, .tagInUse, 0),
    (!windowServes h p (fun _ => true) addr length, .noWindow, 0),
    (someLease h own, .overlap, firstId h own),
    (h.leases.waits.any ownWait, .overlap, firstWait h ownWait),
    (blocked && !queue && h.leases.slots.all (fun s => s.lease.isSome), .leaseFull, 0),
    (blocked && !queue && someLease h conflict, .conflict, firstId h conflict),
    (blocked && !queue, .conflict,
      firstWait h (fun w => w.port != p && rangesOverlap w.base w.length base length)),
    (blocked && queue && decide (8 ≤ h.leases.waits.length), .leaseFull, 1)]

/-- The checks that open every request of the configuration unit (R116). -/
def roleTable (h : Hub) (p : Port) (tag : Byte) (malformed : Bool) : List (Bool × Status × Nat) :=
  [(malformed, .malformed, 0),
    ((h.layer p).tags.contains tag, .tagInUse, 0),
    (h.config.holder != some p, .noRole, match h.config.holder with
      | some q => q.val
      | none => 0xFF)]

/-- The table of R123, after the checks of R116. -/
def commitTable (h : Hub) (p : Port) (tag : Byte) (force reserved : Nat) : List (Bool × Status × Nat) :=
  let c := h.config.staged
  let size := c.banks * 2 ^ c.rowBits * c.page
  let outside (w : Option Window) : Bool := match w with
    | some r => decide (size < r.target + r.size)
    | none => false
  let windows := h.windows.p0.toList ++ h.windows.p1.toList ++ h.windows.p2.toList ++ h.windows.p3.toList
  roleTable h p tag (decide (1 < force) || reserved != 0) ++
    [(h.channel == .bringup || h.config.change.isSome, .busy, 1),
      (decide (32 < c.quota.p0 + c.quota.p1 + c.quota.p2 + c.quota.p3), .badParam, 0x01),
      (decide (c.tHoldMin < c.tOpen), .badParam, 0x02),
      (decide (c.upkeepInterval < 4 * c.tUpkeep), .badParam, 0x03),
      (windows.any outside, .badParam, 0x40 + (windows.findIdx? outside).getD 0),
      (!h.table.isEmpty && force == 0, .busy, 2)]

/-- The table of R140; `port` and `window` are the named port and window. -/
def windowTable (h : Hub) (p : Port) (tag : Byte) (port window enable : Nat) (rights : Byte)
    (reserved base size target : Nat) : List (Bool × Status × Nat) :=
  let c := h.config.committed
  let other (j : Nat) : Bool := j != window && (match (h.windows.get (Fin.ofNat 4 port)).get (Fin.ofNat 4 j) with
    | some r => decide (base < r.base + r.size) && decide (r.base < base + size)
    | none => false)
  roleTable h p tag
      (decide (reserved ≠ 0 ∨ 3 < port ∨ 3 < window ∨ 1 < enable ∨ 3 < rights.toNat ∨
        (enable = 1 ∧ (base % 256 ≠ 0 ∨ size % 256 ≠ 0 ∨ target % 256 ≠ 0 ∨ size = 0 ∨ 0x80000000 < size ∨
          0x100000000 < base + size ∨ rights = 0)))) ++
    [(h.config.change.isSome, .busy, 1),
      (enable == 1 && decide (c.banks * 2 ^ c.rowBits * c.page < target + size), .badParam, 0x10),
      (enable == 1 && [0, 1, 2, 3].any other, .badParam, 0x20 + ([0, 1, 2, 3].findIdx? other).getD 0)]

/-! ### The items that the units present (R50, R51, R63, R106, R109, R110, R124, R125, R127, R128) -/

/-- The items of R63's table for the hub's level, and none outside SERVING; `quiet` says that no entry is QUEUED and none is
ACTIVE without the aborting mark. -/
def UpkeepTable (h : Hub) : Prop :=
  let i := h.upkeep.items
  let level := h.upkeep.level
  let pressing := level = .urgent ∨ level = .critical
  let quiet := ∀ e ∈ h.table, e.phase ≠ .queued ∧ (e.phase = .active → e.aborting ≠ none)
  (h.channel ≠ .serving → i = Items.none) ∧
    (h.channel = .serving →
      (i.upkeep = true ↔ pressing ∨ ((level = .lax ∨ level = .due) ∧ quiet)) ∧
        (i.closeAll = true ↔ pressing ∨ (level = .due ∧ quiet)) ∧
        (i.opensWithheld = true ↔ pressing) ∧ (i.startsWithheld = true ↔ pressing) ∧
        (i.stop = true ↔ level = .critical) ∧
        i = { Items.none with
          upkeep := i.upkeep
          closeAll := i.closeAll
          opensWithheld := i.opensWithheld
          startsWithheld := i.startsWithheld
          stop := i.stop })

/-- The items of the rest unit: in ENTERING, unless abandoned, those of R106; in LEAVING, unless a change is pending, the
RETAIN_EXIT demand until its issue in the exit wait (R109) and the demand for the exit UPKEEP until its issue (R110). -/
def RestTable (h : Hub) : Prop :=
  let j := h.rest.items
  let closed := ∀ k ∈ h.scheduler.banks, k.state = .closed
  let flying (c : ChannelCommand) : Prop := ∃ t, h.scheduler.flight = some ⟨c, t⟩
  (h.channel = .entering → h.rest.abandoning = false →
      (j.upkeep = true ↔ 0 < h.upkeep.debt) ∧
        (j.retainEnter = true ↔ closed ∧ h.upkeep.debt = 0 ∧ ¬ flying .upkeep) ∧
        j = { Items.none with closeAll := true, upkeep := j.upkeep, retainEnter := j.retainEnter }) ∧
    (h.channel = .entering → h.rest.abandoning = true → j = Items.none) ∧
    (h.channel = .leaving → h.rest.leaving = some .exitWait →
      (j.retainExit = true ↔ h.config.change = none ∧ ¬ flying .retainExit) ∧
        j = { Items.none with retainExit := j.retainExit }) ∧
    (h.channel = .leaving → h.rest.leaving = some .exitUpkeep →
      (j.upkeep = true ↔ h.config.change = none ∧ ¬ flying .upkeep) ∧ j = { Items.none with upkeep := j.upkeep }) ∧
    (h.channel ≠ .entering → (h.channel ≠ .leaving ∨ h.rest.leaving = none) → j = Items.none)

/-- The items of a pending change: opens and starts withheld, and the RETAIN_EXIT demand once nothing is in flight and the
memory is in retention (R124, R125, R131). -/
def ChangeTable (h : Hub) : Prop :=
  let c := h.config.items
  (h.config.change = none → c = Items.none) ∧
    (h.config.change ≠ none →
      (c.retainExit = true ↔ h.dram.retention = true ∧ h.scheduler.burst = none ∧ h.scheduler.flight = none) ∧
        c = { Items.none with opensWithheld := true, startsWithheld := true, retainExit := c.retainExit })

/-- The items of the bring-up sequence (R127, R128): the close-all demand in SETTLE and until ALL_CLOSE is issued, ALL_CLOSE
in CLOSE and MODE_LOAD in MODE until issued, the upkeep demand in BURST until the last is issued. -/
def BringupTable (h : Hub) : Prop :=
  let b := h.config.bringupItems
  let flying (c : ChannelCommand) : Prop := ∃ t, h.scheduler.flight = some ⟨c, t⟩
  (h.config.bringup = none → b = Items.none) ∧
    ∀ r, h.config.bringup = some r →
      (r.phase = .settle → b = { Items.none with closeAll := true }) ∧
        (r.phase = .close → flying .allClose → b = Items.none) ∧
        (r.phase = .close → ¬ flying .allClose → b = { Items.none with closeAll := true, allClose := true }) ∧
        (r.phase = .mode → (b.modeLoad = true ↔ ¬ flying .modeLoad) ∧ b = { Items.none with modeLoad := b.modeLoad }) ∧
        (r.phase = .burst → (b.upkeep = true ↔ 1 < r.upkeepsLeft ∨ (r.upkeepsLeft = 1 ∧ ¬ flying .upkeep)) ∧
          b = { Items.none with upkeep := b.upkeep })

/-- A number of `n` bytes at an offset of a record, least significant byte first (R153, R163). -/
def field (record : List Byte) (offset n : Nat) : Nat := leNat ((record.drop offset).take n)

/-! ### The layouts of requests (R154) -/

/-- The payload that R154 lays out for a request: the kind code, the tag, and the fields of the kind in their places. -/
def requestBytes : Request → List Byte
  | .read tag words reserved addr => [0x10, tag, byteOf words, byteOf reserved] ++ leBytes 4 addr
  | .write tag words reserved addr data =>
    [0x11, tag, byteOf words, byteOf reserved] ++ leBytes 4 addr ++ data.flatMap wordBytes
  | .fence tag reserved => [0x12, tag] ++ leBytes 2 reserved
  | .leaseTake tag mode flags addr length duration limit =>
    [0x20, tag, mode, flags] ++ leBytes 4 addr ++ leBytes 4 length ++ leBytes 2 duration ++ leBytes 2 limit
  | .leaseDrop tag id generation reserved => [0x21, tag, byteOf id, generation] ++ leBytes 4 reserved
  | .leaseRenew tag id generation duration reserved =>
    [0x22, tag, byteOf id, generation] ++ leBytes 2 duration ++ leBytes 2 reserved
  | .rest tag reserved => [0x30, tag] ++ leBytes 2 reserved
  | .wake tag reserved => [0x31, tag] ++ leBytes 2 reserved
  | .query tag subject port => [0x40, tag, byteOf subject, byteOf port]
  | .configSet tag reserved pairs =>
    [0x50, tag] ++ leBytes 2 reserved ++ pairs.flatMap (fun x => [x.id, x.reserved] ++ leBytes 2 x.value)
  | .configCommit tag force reserved => [0x51, tag, byteOf force, byteOf reserved]
  | .windowSet tag port window enable rights reserved base size target =>
    [0x52, tag, byteOf port, byteOf window, byteOf enable, rights] ++ leBytes 2 reserved ++ leBytes 4 base ++
      leBytes 4 size ++ leBytes 4 target
  | .handover tag target reserved => [0x53, tag, byteOf target, byteOf reserved]
  | .claim tag reserved => [0x54, tag] ++ leBytes 2 reserved
  | .hubReset tag reserved => [0x55, tag] ++ leBytes 2 reserved

/-- Every field of a request fits its place in the layout of R154, and its payload length matches its kind. -/
def requestFits : Request → Prop
  | .read _ words reserved addr => words < 256 ∧ reserved < 256 ∧ addr < 2 ^ 32
  | .write _ words reserved addr data =>
    1 ≤ words ∧ words ≤ 32 ∧ data.length = words ∧ reserved < 256 ∧ addr < 2 ^ 32
  | .fence _ reserved => reserved < 2 ^ 16
  | .leaseTake _ _ _ addr length duration limit =>
    addr < 2 ^ 32 ∧ length < 2 ^ 32 ∧ duration < 2 ^ 16 ∧ limit < 2 ^ 16
  | .leaseDrop _ id _ reserved => id < 256 ∧ reserved < 2 ^ 32
  | .leaseRenew _ id _ duration reserved => id < 256 ∧ duration < 2 ^ 16 ∧ reserved < 2 ^ 16
  | .rest _ reserved => reserved < 2 ^ 16
  | .wake _ reserved => reserved < 2 ^ 16
  | .query _ subject port => subject < 256 ∧ port < 256
  | .configSet _ reserved pairs =>
    reserved < 2 ^ 16 ∧ 1 ≤ pairs.length ∧ pairs.length ≤ 16 ∧ ∀ x ∈ pairs, x.value < 2 ^ 16
  | .configCommit _ force reserved => force < 256 ∧ reserved < 256
  | .windowSet _ port window enable _ reserved base size target =>
    port < 256 ∧ window < 256 ∧ enable < 256 ∧ reserved < 2 ^ 16 ∧ base < 2 ^ 32 ∧ size < 2 ^ 32 ∧ target < 2 ^ 32
  | .handover _ target reserved => target < 256 ∧ reserved < 256
  | .claim _ reserved => reserved < 2 ^ 16
  | .hubReset _ reserved => reserved < 2 ^ 16

/-- The entry left when `ahead` is ahead of it and its ORDER is worked out again, if its predecessor is among `gone` (R13):
the predecessor becomes the youngest unfinished entry ahead in hazard with it, and an entry left with no hold reason is
QUEUED (R12). -/
def reordered (gone : List Index) (ahead : List Entry) (e : Entry) : Entry :=
  match e.holds.order with
  | some i =>
    if i ∈ gone then
      let order := ((ahead.filter (fun a => a.unfinished && hazard a e)).getLast?).map Entry.index
      { e with
        holds := { e.holds with order := order }
        phase := if e.phase = .held ∧ order = none ∧ e.holds.fencesAhead = 0 ∧ e.holds.lease = false ∧
            e.holds.channel = false then .queued else e.phase }
    else e
  | none => e

end Sys2Proof.Safety
end

