-- ==== Sys2Proof/Certificates/Slice0/Obligations.lean ====
section
/-! DEFINITION. The statements for the provers, in the order of OBLIGATIONS.json. -/

open Sys2Proof Sys2Proof.Machine Sys2Proof.Safety

/-! ### The machine, and reset -/

/-- A step with a command at the front of the queue is the command's effect on the state with the rest of the queue. -/
def Obligations.StepRunsTheFrontCommand : Prop :=
  ∀ (c : Instr) (rest : List Instr) (s : State),
    step { s with pending := c :: rest } = exec c { s with pending := rest }

/-- The model's choice (log entry 2): on an empty queue one memory clock period passes and nothing else changes; while the
reset line is low the memory clock is stopped (R182). -/
def Obligations.EmptyQueueLetsOnePeriodPass : Prop :=
  ∀ s : State, s.pending = [] →
    (Running s → step s = .next { s with hub := { s.hub with now := s.hub.now + 1 } }) ∧
      (s.hub.resetLow = true → step s = .next s)

/-- What power-up and the reset line leave: R28, R57, R72, R101, R115, R135, R144, R152, R165, R180 and the defaults of
R120 and R136. No rule says where the receiving side of a link stands in its line coding: that it is between frames is the
model's choice (log entry 25). -/
def Obligations.ResetLeavesThePowerUpValues : Prop :=
  State.reset.pending = [] ∧ Running State.reset ∧
    (let h := State.reset.hub;
      h.channel = .unready ∧ h.table = [] ∧ h.hubTime = 0 ∧
        (∀ p, (h.link p).state = .training ∧ (h.link p).step = some .align ∧ (h.link p).farReady = false ∧
          (h.link p).trainingTimer = some 800000 ∧ (h.link p).expected = 0 ∧ (h.link p).sendSeq = 0 ∧
          (h.link p).corrupt = 0 ∧ (h.link p).replays = 0 ∧ (h.link p).nakMark = false ∧
          (h.link p).ackOwed = none ∧ (h.link p).resend = none ∧ (h.link p).fullWait = false ∧
          (h.link p).farRoom = 0 ∧ (h.link p).inbound = [] ∧ (h.link p).outbound = [] ∧
          (h.link p).replay = [] ∧ (h.link p).replayTimer = none ∧ (h.link p).roomTimer = none ∧
          (h.link p).receiver = .between) ∧
        (∀ p, h.layer p = ⟨[], [], NoticeSet.empty, [], 0, 0, 0⟩) ∧
        (∀ p, h.windows.get p = ⟨some ⟨0, 0x10000000, 0, true, true⟩, none, none, none⟩) ∧
        h.scheduler.banks = List.replicate 8 ⟨.closed, none, none, none, none, false, none⟩ ∧
        h.scheduler.lastServed = 7 ∧ h.scheduler.burst = none ∧ h.scheduler.flight = none ∧
        h.scheduler.hits = 0 ∧ h.scheduler.misses = 0 ∧
        h.upkeep = ⟨none, 0, .clear, 0, 0, Items.none⟩ ∧
        h.leases.slots = (List.finRange 16).map (fun i => ⟨i, 0, none⟩) ∧ h.leases.waits = [] ∧
        h.leases.grants = 0 ∧ h.leases.lapses = 0 ∧
        h.rest = ⟨⟨false, false, false, false⟩, false, none, [], Items.none⟩ ∧
        h.config.holder = none ∧ h.config.change = none ∧ h.config.bringup = none ∧
        h.config.items = Items.none ∧ h.config.bringupItems = Items.none ∧
        h.config.staged = h.config.committed ∧
        paramIds.map h.config.committed.valueOf =
          [8, 14, 2048, 4, 4, 10, 4, 3, 40, 1560, 100, 16, 4, 0, 4, 8, 8, 8, 8, 0, 0, 0, 0].map some ∧
        h.check = ⟨0, 0, none⟩ ∧ h.dram.data = [] ∧ h.dram.codes = [] ∧ h.dram.retention = false)

/-- Every law that the invariants below keep holds of the state after reset. -/
def Obligations.ResetMeetsTheLaws : Prop :=
  (let h := State.reset.hub;
    MemoryLaw h ∧ DebtLaw h ∧ ItemsLaw h ∧ RoleLaw h ∧ BoundsLaw h ∧ QuotaLaw h ∧ OneActiveLaw h ∧
      WindowsInside h ∧ WindowsApart h ∧ UpkeepLaw h ∧ RestingLaw h ∧ LeasesApart h ∧ EntryLaw h ∧ OrderLaw h ∧
      GrantLaw h ∧ LeaseHoldLaw h ∧ WaitLaw h ∧ LinkLaw h ∧ BringupLaw h ∧ BurstLaw h ∧ DrainLaw h ∧ TagLaw h)

/-- The reset line (R182). At its fall every item is lost: no entry, burst, command in flight, lease, waiting request,
outstanding or pending work of a message layer, notice, vote, control role, pending change or bring-up record is left, and
every link is DOWN with empty lists. What the items read as while the line is low is the model's choice (log entries 15 and
25): R182 gives these values at the release. While it is low only its release is taken; at its release every item takes its power-up
value. The memory's contents are undefined from the fall on (log entry 3: the count of such events rises). -/
def Obligations.ResetLineCutsEverythingOff : Prop :=
  ∀ s : State,
    (Running s → ∃ h, exec .resetLineAsserted s = .next { s with hub := h } ∧ h.resetLow = true ∧ h.table = [] ∧
      h.scheduler.burst = none ∧ h.scheduler.flight = none ∧ h.channel = .unready ∧ h.dram.data = [] ∧
      h.dram.codes = [] ∧ h.dram.epoch = s.hub.dram.epoch + 1 ∧ h.dram.retention = false ∧
      (∀ p, (h.link p).state = .down ∧ (h.link p).inbound = [] ∧ (h.link p).outbound = [] ∧ (h.link p).replay = [] ∧
        (h.link p).receiver = .between) ∧
      (∀ p, h.layer p = ⟨[], [], NoticeSet.empty, [], 0, 0, 0⟩) ∧
      h.leases.slots = (List.finRange 16).map (fun i => ⟨i, 0, none⟩) ∧ h.leases.waits = [] ∧
      h.leases.grants = 0 ∧ h.leases.lapses = 0 ∧
      (∀ p, h.rest.votes.get p = false) ∧ h.rest.wakes = [] ∧ h.rest.leaving = none ∧
      h.config.holder = none ∧ h.config.change = none ∧ h.config.bringup = none ∧
      h.config.staged = Params.default ∧ h.config.committed = Params.default ∧
      h.upkeep.timer = none ∧ h.upkeep.debt = 0 ∧ h.check = ⟨0, 0, none⟩) ∧
    (s.hub.resetLow = true → exec .resetLineReleased s =
      .next { s with hub := { State.reset.hub with
        dram := { State.reset.hub.dram with epoch := s.hub.dram.epoch } } }) ∧
    (s.hub.resetLow = true → ∀ c, c ≠ .resetLineReleased → exec c s = .next s)

/-! ### Requests -/

/-- READ and WRITE against the table of R5: the first condition that holds refuses the request with the status and the
detail shown; a port below its quota finds a free entry (R4). A request that none refuses is admitted (R7): it occupies the
lowest free entry (R2) at the tail of the age list (R3), with the fields of R7, the hold reasons of R9, R10 and R11, and the
write data in its buffer (R145); its tag joins the tag set, and its port's vote is cleared (R102). -/
def Obligations.ReadAndWriteAreDecidedByR5AndAdmittedByR7 : Prop :=
  (∀ (s : State) (p : Port) (kind : Access) (m : List Byte) (rest : List (List Byte)) (tag : Byte)
     (words reserved addr a : Nat) (data : List Word) (status : Status) (detail : Nat),
     Taking s p m rest →
     parseRequest m = some (match kind with
       | .read => .read tag words reserved addr
       | .write => .write tag words reserved addr data) →
     WindowsApart s.hub → TranslatesTo s.hub p addr (words * 8) a →
     ((∃ i, ∀ e ∈ s.hub.table, e.index ≠ i) ∨ s.hub.config.committed.quota.get p ≤ s.hub.occupied p) →
     firstThatHolds (admissionTable s.hub p kind tag words reserved addr a) = some (status, detail) →
     exec (match kind with
       | .read => .read p
       | .write => .write p) s = after s ((s.hub.afterTaking p rest).refuse p tag status detail)) ∧
  (∀ (s : State) (p : Port) (kind : Access) (m : List Byte) (rest : List (List Byte)) (tag : Byte)
     (words reserved addr a : Nat) (data : List Word) (i : Index) (v : Port) (r : Window),
     Taking s p m rest →
     parseRequest m = some (match kind with
       | .read => .read tag words reserved addr
       | .write => .write tag words reserved addr data) →
     WindowsApart s.hub → Enabled s.hub p v r → r.base ≤ addr → addr + words * 8 ≤ r.base + r.size →
     a = r.target + (addr - r.base) →
     (∀ e ∈ s.hub.table, e.index ≠ i) → (∀ j < i, ∃ e ∈ s.hub.table, e.index = j) →
     firstThatHolds (admissionTable s.hub p kind tag words reserved addr a) = none →
     (let c := s.hub.config.committed
       let e : Entry :=
         { index := i
           port := p
           tag := tag
           kind := kind
           addr := a
           words := words
           wordsDone := 0
           bank := a / 256 % c.banks
           row := a / (256 * c.banks * (c.page / 256)) % 2 ^ c.rowBits
           phase := .held
           holds := Holds.none
           passed := 0
           aborting := none
           status := .ok
           flagged := 0
           buffer := match kind with
             | .read => []
             | .write => data }
       let holds : Holds :=
         { order := ((s.hub.table.filter (fun x => x.unfinished && hazard x e)).getLast?).map Entry.index
           fencesAhead := (s.hub.layer p).fences.length
           lease := someLease s.hub (fun l => l.conflictsWith p kind a (words * 8))
           channel := s.hub.channel == .bringup || s.hub.channel == .entering || s.hub.channel == .resting ||
             s.hub.channel == .leaving }
       let h := s.hub.afterTaking p rest
       exec (match kind with
         | .read => .read p
         | .write => .write p) s =
         after s (({ h with table := h.table ++
             [{ e with
               phase := if holds = Holds.none then .queued else .held
               holds := holds }] }.addTag p tag).wantMemory p)))

/-- A FENCE (R18): its refusals in order; with an empty watch set the OK at once; otherwise it joins the tail of the fence
list with its watch set, and its tag joins the tag set. -/
def Obligations.FenceIsRefusedRepliedOrListed : Prop :=
  ∀ (s : State) (p : Port) (m : List Byte) (rest : List (List Byte)) (tag : Byte) (reserved : Nat),
    Taking s p m rest → parseRequest m = some (.fence tag reserved) →
    (let h := s.hub.afterTaking p rest
      let used := (s.hub.layer p).tags.contains tag
      let full := decide (4 ≤ (s.hub.layer p).fences.length)
      let watch := (s.hub.table.filter (fun e => e.port == p &&
        (e.phase == .held || e.phase == .queued || e.phase == .active))).map Entry.index
      (∀ status detail,
        firstThatHolds [(reserved != 0, .malformed, 0), (used, .tagInUse, 0), (full, .full, 0)] =
            some (status, detail) →
          exec (.fence p) s = after s (h.refuse p tag status detail)) ∧
        (firstThatHolds [(reserved != 0, .malformed, 0), (used, .tagInUse, 0), (full, .full, 0)] = none →
          exec (.fence p) s = after s (if watch = [] then h.accept p tag
            else (h.onMessages p (fun l => { l with fences := l.fences ++ [⟨tag, watch⟩] })).addTag p tag)))

/-- A LEASE_TAKE against the table of R79: the first condition that holds refuses it. One that is not refused joins the tail
of the wait list if it is blocked (R81). Otherwise it occupies the lowest free slot, whose generation rises (R75, R80), with
the drain set of R82; with an empty drain set it is granted and replied at once (R84). Where a range overlaps several of the
port's own, R79 does not say which one OVERLAP names: the lowest lease id, else the earliest position, is the model's choice
(log entry 14). -/
def Obligations.LeaseTakeIsDecidedByTheTableOfR79 : Prop :=
  (∀ (s : State) (p : Port) (m : List Byte) (rest : List (List Byte)) (tag mode flags : Byte)
     (addr length duration limit base : Nat) (status : Status) (detail : Nat),
     Taking s p m rest → parseRequest m = some (.leaseTake tag mode flags addr length duration limit) →
     WindowsApart s.hub → TranslatesTo s.hub p addr length base →
     firstThatHolds (leaseTable s.hub p tag mode flags addr length duration limit base) = some (status, detail) →
     exec (.leaseTake p) s = after s ((s.hub.afterTaking p rest).refuse p tag status detail)) ∧
  (∀ (s : State) (p : Port) (m : List Byte) (rest : List (List Byte)) (tag mode flags : Byte)
     (addr length duration limit base : Nat) (v : Port) (r : Window),
     Taking s p m rest → parseRequest m = some (.leaseTake tag mode flags addr length duration limit) →
     WindowsApart s.hub → Enabled s.hub p v r → r.base ≤ addr → addr + length ≤ r.base + r.size →
     base = r.target + (addr - r.base) → SlotsLaw s.hub →
     firstThatHolds (leaseTable s.hub p tag mode flags addr length duration limit base) = none →
     (let h := s.hub.afterTaking p rest
       let lm : LeaseMode := if mode = 1 then .guarded else .sole
       let w : Waiting := ⟨p, tag, base, length, lm, duration, s.hub.hubTime + limit⟩
       let drain := (s.hub.table.filter (fun e => rangesOverlap base length e.addr (e.words * 8) &&
         ((e.port != p && (lm == .sole || e.kind == .write)) ||
           (lm == .guarded && e.port == p && e.kind == .write)))).map Entry.index
       (blockedTake s.hub p lm base length = true →
         exec (.leaseTake p) s =
           after s ({ h with leases := { h.leases with waits := h.leases.waits ++ [w] } }.addTag p tag)) ∧
         (blockedTake s.hub p lm base length = false →
           ∀ x ∈ s.hub.leases.slots, x.lease = none → (∀ y ∈ s.hub.leases.slots, y.lease = none → x.id ≤ y.id) →
             (drain ≠ [] → exec (.leaseTake p) s = after s
               ({ h with leases := { h.leases with slots := h.leases.slots.map (fun (y : LeaseSlot) =>
                   if y.id = x.id then
                     ⟨x.id, x.generation + 1, some ⟨p, base, length, lm,
                       .granting duration (s.hub.hubTime + limit) drain tag⟩⟩
                   else y) } }.addTag p tag)) ∧
               (drain = [] → exec (.leaseTake p) s = after s
                 ({ h with leases := { h.leases with
                     slots := h.leases.slots.map (fun (y : LeaseSlot) =>
                       if y.id = x.id then
                         ⟨x.id, x.generation + 1, some ⟨p, base, length, lm, .granted (s.hub.hubTime + duration)⟩⟩
                       else y)
                     grants := rise32 h.leases.grants } }.answer p
                   ⟨tag, .ok, 0, [BitVec.ofNat 8 x.id.val, x.generation + 1] ++ leBytes 2 duration⟩)))))

/-- LEASE_DROP and LEASE_RENEW (R91, R92): the refusals of their checks, in order; a handle that names a GRANTED lease of
the port drops it by the steps of R90, or moves its expiry. -/
def Obligations.LeaseDropAndRenewActOnANamedLease : Prop :=
  ∀ (s : State) (p : Port) (m : List Byte) (rest : List (List Byte)) (tag : Byte) (id : Nat) (generation : Byte)
    (duration reserved : Nat), Taking s p m rest → SlotsLaw s.hub →
    (let h := s.hub.afterTaking p rest
      let used := (s.hub.layer p).tags.contains tag
      let names (x : LeaseSlot) (l : Lease) : Prop := x ∈ s.hub.leases.slots ∧ x.id.val = id ∧
        x.generation = generation ∧ x.lease = some l ∧ l.owner = p ∧ ∃ expiry, l.phase = .granted expiry
      (parseRequest m = some (.leaseDrop tag id generation reserved) →
        (reserved ≠ 0 → exec (.leaseDrop p) s = after s (h.refuse p tag .malformed 0)) ∧
          (reserved = 0 → used = true → exec (.leaseDrop p) s = after s (h.refuse p tag .tagInUse 0)) ∧
          (reserved = 0 → used = false → (¬ ∃ x l, names x l) →
            exec (.leaseDrop p) s = after s (h.refuse p tag .noLease 0)) ∧
          ∀ x l, reserved = 0 → used = false → names x l →
            exec (.leaseDrop p) s =
              after s ((((h.freeSlots (fun (y : LeaseSlot) => y.id == x.id)).recheck).scanWaits).accept p tag)) ∧
        (parseRequest m = some (.leaseRenew tag id generation duration reserved) →
          (reserved ≠ 0 ∨ duration = 0 → exec (.leaseRenew p) s = after s (h.refuse p tag .malformed 0)) ∧
            (reserved = 0 → duration ≠ 0 → used = true →
              exec (.leaseRenew p) s = after s (h.refuse p tag .tagInUse 0)) ∧
            (reserved = 0 → duration ≠ 0 → used = false → (¬ ∃ x l, names x l) →
              exec (.leaseRenew p) s = after s (h.refuse p tag .noLease 0)) ∧
            ∀ x l, reserved = 0 → duration ≠ 0 → used = false → names x l →
              exec (.leaseRenew p) s = after s
                ({ h with leases := { h.leases with slots := h.leases.slots.map (fun (y : LeaseSlot) =>
                    if y.id = x.id then
                      { x with lease := some { l with phase := .granted (s.hub.hubTime + duration) } }
                    else y) } }.accept p tag)))

/-- REST and WAKE (R103, R104): the two checks; a REST sets the vote and is replied OK at once; a WAKE clears it and is
replied at once in SERVING, UNREADY and BRINGUP, and joins the deferred WAKE list in ENTERING, RESTING and LEAVING. That
R130, which differs from R104 and R157 on BRINGUP, is read so is DEDUCED (log entry 13).
Asking for the memory (R102, R109, R112): the port's vote is cleared, and a channel that is RESTING becomes LEAVING, in the
exit wait, with the interval timer loaded with UPKEEP_INTERVAL, unless a change is pending. -/
def Obligations.RestAndWakeMoveTheVote : Prop :=
  (∀ (s : State) (p : Port) (m : List Byte) (rest : List (List Byte)) (tag : Byte) (reserved : Nat),
     Taking s p m rest →
     (let h := s.hub.afterTaking p rest
       let checks := [(reserved != 0, Status.malformed, 0), ((s.hub.layer p).tags.contains tag, Status.tagInUse, 0)]
       (parseRequest m = some (.rest tag reserved) →
         (∀ status detail, firstThatHolds checks = some (status, detail) →
           exec (.rest p) s = after s (h.refuse p tag status detail)) ∧
           (firstThatHolds checks = none → exec (.rest p) s =
             after s ({ h with rest := { h.rest with votes := h.rest.votes.set p true } }.accept p tag))) ∧
         (parseRequest m = some (.wake tag reserved) →
           (∀ status detail, firstThatHolds checks = some (status, detail) →
             exec (.wake p) s = after s (h.refuse p tag status detail)) ∧
             (firstThatHolds checks = none →
               (s.hub.channel = .serving ∨ s.hub.channel = .unready ∨ s.hub.channel = .bringup →
                 exec (.wake p) s =
                   after s ({ h with rest := { h.rest with votes := h.rest.votes.set p false } }.accept p tag)) ∧
                 (s.hub.channel = .entering ∨ s.hub.channel = .resting ∨ s.hub.channel = .leaving →
                   exec (.wake p) s = after s
                     (let g := (h.wantMemory p).addTag p tag
                      { g with rest := { g.rest with wakes := g.rest.wakes ++ [(p, tag)] } })))))) ∧
  ∀ (h : Hub) (p : Port),
    (let votes := h.rest.votes.set p false
     (h.channel = .resting → h.config.change = none →
       h.wantMemory p = { h with
         channel := .leaving
         rest := { h.rest with votes := votes, leaving := some .exitWait }
         upkeep := { h.upkeep with timer := some (h.now + h.config.committed.upkeepInterval) } }) ∧
       (h.channel ≠ .resting ∨ h.config.change ≠ none →
         h.wantMemory p = { h with rest := { h.rest with votes := votes } }))

/-- The arbiter takes no message while the outbound list is full, a reply is pending or a notice record is present, or when
the inbound list is empty (R156, R159); the model's choice for a command that comes then is that nothing changes (log
entry 1). -/
def Obligations.NoMessageIsTakenBeforeItsTurn : Prop :=
  ∀ (s : State) (p : Port) (c : Instr),
    c ∈ [Instr.read p, .write p, .fence p, .leaseTake p, .leaseDrop p, .leaseRenew p, .rest p, .wake p, .query p,
      .configSet p, .configCommit p, .windowSet p, .handover p, .claim p, .hubReset p, .malformedMessage p] →
    16 ≤ (s.hub.link p).outbound.length ∨ (s.hub.layer p).replies ≠ [] ∨
      (s.hub.layer p).notices ≠ NoticeSet.empty ∨ (s.hub.link p).inbound = [] →
    exec c s = .next s

/-- QUERY (R162): its checks; the OK with the record of its subject as it stands once the message has been taken; nothing
of the hub changes but for the taking and the reply. A message that is no request is answered MALFORMED with the tag byte as
received, or 0 (R156). The taking of any message (R156, R171): the head leaves the inbound list, `rest` being left, the
messages-taken count rises, and where the list was full, so that the advertised room rises from 0 to 1, an acknowledgement is
owed within 4 µs unless one is owed already; nothing else changes. A message placed joins the tail of its port's outbound list
(R159); an immediate reply is placed, a status of 8 or above counted as a refusal (R156, R162); a deferred reply joins the tail
of the pending reply list, and a tag the tag set (R158); nothing else changes, and nothing of another port. The layouts: a
message spells a request if and only if it is the payload that R154 lays out for that request, with every field in its place and a
payload length that matches; the payload of a REPLY and of a NOTICE, its detail at most 0xFFFF, and the codes of R155. -/
def Obligations.QueryIsAnsweredAndNoRequestIsMalformed : Prop :=
  (∀ (h : Hub) (p : Port) (rest : List (List Byte)),
     (let g := h.afterTaking p rest
      let l := h.link p
      g.link p = { l with
          inbound := rest
          ackOwed := if l.inbound.length = 4 ∧ l.ackOwed = none then some (h.now + 1600) else l.ackOwed } ∧
        g.layer p = { h.layer p with taken := min ((h.layer p).taken + 1) 0xFFFFFFFF } ∧
        (∀ q, q ≠ p → g.link q = h.link q ∧ g.layer q = h.layer q) ∧
        { g with links := h.links, messages := h.messages } = h)) ∧
  (∀ (s : State) (p : Port) (m : List Byte) (rest : List (List Byte)) (tag : Byte) (subject port : Nat),
    Taking s p m rest →
    (let h := s.hub.afterTaking p rest
      let malformed := decide (6 < subject ∨ (subject = 1 ∧ 3 < port) ∨ (subject ≠ 1 ∧ port ≠ 0))
      let checks := [(malformed, Status.malformed, 0), ((s.hub.layer p).tags.contains tag, Status.tagInUse, 0)]
      (parseRequest m = some (.query tag subject port) →
        (∀ status detail, firstThatHolds checks = some (status, detail) →
          exec (.query p) s = after s (h.refuse p tag status detail)) ∧
          (firstThatHolds checks = none →
            exec (.query p) s = after s (h.place p (.reply ⟨tag, .ok, 0, h.record subject port⟩)))) ∧
        (parseRequest m = none →
          exec (.malformedMessage p) s = after s (h.refuse p (malformedTag m) .malformed 0)))) ∧
  (∀ (h : Hub) (p : Port) (m : OutMessage),
     (let g := h.place p m
      g.link p = { h.link p with outbound := (h.link p).outbound ++ [m] } ∧ (∀ q, q ≠ p → g.link q = h.link q) ∧
        { g with links := h.links } = h)) ∧
  (∀ (h : Hub) (p : Port) (r : Reply),
     (let g := h.answer p r
      let refused := (h.layer p).refusals
      g.link p = { h.link p with outbound := (h.link p).outbound ++ [.reply r] } ∧
        g.layer p = { h.layer p with
          refusals := if 8 ≤ r.status.code then min (refused + 1) 0xFFFFFFFF else refused } ∧
        (∀ q, q ≠ p → g.link q = h.link q ∧ g.layer q = h.layer q) ∧
        { g with links := h.links, messages := h.messages } = h)) ∧
  (∀ (h : Hub) (p : Port) (tag : Byte) (status : Status) (detail : Nat) (r : PendingReply),
     h.refuse p tag status detail = h.answer p ⟨tag, status, detail, []⟩ ∧
       h.accept p tag = h.answer p ⟨tag, .ok, 0, []⟩ ∧
       (let g := h.defer p r
        g.layer p = { h.layer p with replies := (h.layer p).replies ++ [r] } ∧ (∀ q, q ≠ p → g.layer q = h.layer q) ∧
          { g with messages := h.messages } = h) ∧
       (let g := h.addTag p tag
        g.layer p = { h.layer p with tags := (h.layer p).tags ++ [tag] } ∧ (∀ q, q ≠ p → g.layer q = h.layer q) ∧
          { g with messages := h.messages } = h)) ∧
  (∀ (h : Hub) (p q : Port) (f : Link → Link) (g : MessageLayer → MessageLayer),
     (h.onLink p f).link q = (if q = p then f (h.link p) else h.link q) ∧
       { h.onLink p f with links := h.links } = h ∧
       (h.onMessages p g).layer q = (if q = p then g (h.layer p) else h.layer q) ∧
       { h.onMessages p g with messages := h.messages } = h) ∧
  (∀ n : Nat, rise32 n = min (n + 1) 0xFFFFFFFF) ∧
  (∀ (m : List Byte) (r : Request), parseRequest m = some r ↔ requestFits r ∧ m = requestBytes r) ∧
  (∀ m : List Byte, (m.length < 2 → malformedTag m = 0) ∧
     ∀ kind tag rest, m = kind :: tag :: rest → malformedTag m = tag) ∧
  (∀ r : Reply, (OutMessage.reply r).bytes =
     [0x80, r.tag, BitVec.ofNat 8 r.status.code, 0] ++ leBytes 2 (min r.detail 0xFFFF) ++ r.body) ∧
  (∀ (k : NoticeKind) (n : NoticeRecord), (OutMessage.notice k n).bytes =
     [0x81, BitVec.ofNat 8 k.code, BitVec.ofNat 8 n.count, BitVec.ofNat 8 n.handles.length] ++
       leBytes 2 (min n.detail 0xFFFF) ++ n.handles.flatMap (fun x => [BitVec.ofNat 8 x.id.val, x.generation])) ∧
  [Status.ok, .corrected, .damaged, .malformed, .tagInUse, .notReady, .noWindow, .span, .full, .locked, .aborted,
      .conflict, .timeout, .noLease, .leaseFull, .overlap, .noRole, .badParam, .busy].map Status.code =
    [0, 1, 2, 8, 9, 10, 11, 12, 13, 14, 15, 16, 17, 18, 19, 20, 21, 22, 23] ∧
  [NoticeKind.channelState, .controlChanged, .leaseLapsed, .upkeepOverrun].map NoticeKind.code = [1, 2, 3, 4] ∧
  [Channel.unready, .bringup, .serving, .entering, .resting, .leaving].map Channel.code = [0, 1, 2, 3, 4, 5]

/-- The records (R163, R164, R99, R56). Their sizes: HUB 12 bytes, PORT 20 and 16 for each enabled window, LEASES 2 and 16
for each occupied slot, WAITS 2 and 16 for each request, BANKS 2 and 8 for each bank, COUNTERS 44, STAGED 4 and 4 for each
pair; each opens with its subject code. Their fields at the offsets of the tables, a number that is too large for its field
taken modulo the field's size: those of HUB, PORT and COUNTERS, and in LEASES, WAITS, BANKS and STAGED the number of records
and the fields of each record, the records standing in order of slot id, of the wait list, of bank and of parameter id. -/
def Obligations.QueryRecordsHaveTheirSizes : Prop :=
  ∀ (h : Hub) (n : Port),
    ((h.record 0 0).length = 12 ∧ (h.record 0 0).head? = some 0) ∧
      ((h.record 1 n.val).length = 20 + 16 * ((h.windows.get n).toList.filter Option.isSome).length ∧
        (h.record 1 n.val).head? = some 1) ∧
      ((h.record 2 0).length = 2 + 16 * (h.leases.slots.filter (fun x => x.lease.isSome)).length ∧
        (h.record 2 0).head? = some 2) ∧
      ((h.record 3 0).length = 2 + 16 * h.leases.waits.length ∧ (h.record 3 0).head? = some 3) ∧
      ((h.record 4 0).length = 2 + 8 * h.scheduler.banks.length ∧ (h.record 4 0).head? = some 4) ∧
      ((h.record 5 0).length = 44 ∧ (h.record 5 0).head? = some 5) ∧
      ((h.record 6 0).length = 4 + 4 * h.config.stagedPairs.length ∧ (h.record 6 0).head? = some 6) ∧
      (let occupied := h.leases.slots.filter (fun x => x.lease.isSome)
       let ms (t : Nat) : Nat := min (t - h.hubTime) 65535
       let hub := field (h.record 0 0)
       let port := field (h.record 1 n.val)
       let counters := field (h.record 5 0)
       let link (p : Port) : Nat := match (h.link p).state with
         | .down => 0
         | .training => 1
         | .up => 2
       (hub 1 1 = h.channel.code ∧ hub 2 1 = h.upkeep.debt % 256 ∧ hub 3 1 = h.upkeep.level.code ∧
         hub 4 1 = (match h.config.holder with
           | some p => p.val
           | none => 0xFF) ∧
         (∀ p : Port, (hub 5 1).testBit p.val = h.rest.votes.get p) ∧
         (∀ p : Port, hub 6 1 / 4 ^ p.val % 4 = link p) ∧ hub 7 1 = h.table.length % 256 ∧
         hub 8 1 = occupied.length % 256 ∧ hub 9 3 = 0) ∧
       (port 1 1 = n.val ∧ port 2 1 = h.config.committed.quota.get n % 256 ∧
         port 3 1 = (h.table.filter (fun e => e.port == n)).length % 256 ∧
         port 4 1 = (h.config.committed.conflictAction.get n).code ∧ port 5 1 = (h.layer n).fences.length % 256 ∧
         port 6 1 = ((h.windows.get n).toList.filter Option.isSome).length ∧ port 7 1 = 0 ∧
         port 8 4 = (h.layer n).taken % 2 ^ 32 ∧ port 12 4 = (h.layer n).completed % 2 ^ 32 ∧
         port 16 4 = (h.layer n).refusals % 2 ^ 32 ∧
         ∀ (w : Port) r, Enabled h n w r →
           (let at_ := 20 + 16 * (((h.windows.get n).toList.take w.val).filter Option.isSome).length
            port at_ 1 = w.val ∧ (port (at_ + 1) 1).testBit 0 = r.read ∧ (port (at_ + 1) 1).testBit 1 = r.write ∧
              port (at_ + 1) 1 < 4 ∧ port (at_ + 2) 2 = 0 ∧ port (at_ + 4) 4 = r.base % 2 ^ 32 ∧
              port (at_ + 8) 4 = r.size % 2 ^ 32 ∧ port (at_ + 12) 4 = r.target % 2 ^ 32)) ∧
       (counters 1 1 = (if h.check.damage = none then 0 else 1) ∧
         (∀ d, h.check.damage = some d → counters 2 1 = d.port.val ∧ counters 4 4 = d.addr % 2 ^ 32) ∧
         (h.check.damage = none → counters 2 1 = 0 ∧ counters 4 4 = 0) ∧ counters 3 1 = 0 ∧
         counters 8 4 = h.scheduler.hits % 2 ^ 32 ∧ counters 12 4 = h.scheduler.misses % 2 ^ 32 ∧
         counters 16 4 = h.check.corrected % 2 ^ 32 ∧ counters 20 4 = h.check.damaged % 2 ^ 32 ∧
         counters 24 4 = h.upkeep.completed % 2 ^ 32 ∧ counters 28 4 = h.upkeep.overruns % 2 ^ 32 ∧
         counters 32 4 = h.leases.grants % 2 ^ 32 ∧ counters 36 4 = h.leases.lapses % 2 ^ 32 ∧ counters 40 4 = 0) ∧
       (field (h.record 2 0) 1 1 = occupied.length % 256 ∧
         ∀ k x l, occupied[k]? = some x → x.lease = some l →
           (let f (offset size : Nat) : Nat := field (h.record 2 0) (2 + 16 * k + offset) size
            f 0 1 = x.id.val ∧ f 1 1 = x.generation.toNat ∧ f 2 1 = l.owner.val ∧ f 4 3 = l.base / 256 % 2 ^ 24 ∧
              f 7 3 = l.length / 256 % 2 ^ 24 ∧
              (∀ expiry, l.phase = .granted expiry →
                f 3 1 = l.mode.code + 2 ∧ f 10 2 = ms expiry ∧ f 12 4 = 0) ∧
              ∀ duration deadline drain tag, l.phase = .granting duration deadline drain tag →
                f 3 1 = l.mode.code ∧ f 10 2 = ms deadline ∧
                  ∀ i : Index, (f 12 4).testBit i.val = drain.contains i)) ∧
       (field (h.record 3 0) 1 1 = h.leases.waits.length % 256 ∧
         ∀ k w, h.leases.waits[k]? = some w →
           (let f (offset size : Nat) : Nat := field (h.record 3 0) (2 + 16 * k + offset) size
            f 0 1 = w.port.val ∧ f 1 1 = w.tag.toNat ∧ f 2 1 = w.mode.code ∧ f 3 1 = 0 ∧
              f 4 3 = w.base / 256 % 2 ^ 24 ∧ f 7 3 = w.length / 256 % 2 ^ 24 ∧ f 10 2 = w.duration % 2 ^ 16 ∧
              f 12 2 = ms w.deadline ∧ f 14 2 = 0)) ∧
       (field (h.record 4 0) 1 1 = h.scheduler.banks.length % 256 ∧
         ∀ b k, h.scheduler.banks[b]? = some k →
           (let f (offset size : Nat) : Nat := field (h.record 4 0) (2 + 8 * b + offset) size
            f 0 1 = k.state.code ∧ (f 1 1).testBit 0 = k.row.isSome ∧ (f 1 1).testBit 1 = k.closeRequested ∧
              (f 1 1).testBit 2 = (h.candidate b).isSome ∧ f 1 1 < 8 ∧ f 2 2 = k.row.getD 0 % 2 ^ 16 ∧
              f 4 1 = (h.eligible b).length % 256 ∧
              f 5 1 = (match h.candidate b with
                | some e => e.index.val
                | none => 0xFF) ∧ f 6 2 = 0)) ∧
       (field (h.record 6 0) 1 1 = h.config.stagedPairs.length ∧ field (h.record 6 0) 2 2 = 0 ∧
         (h.config.stagedPairs.map Prod.fst).Pairwise (fun i j => i < j) ∧
         (∀ id v, (id, v) ∈ h.config.stagedPairs ↔
           h.config.staged.valueOf id = some v ∧ h.config.committed.valueOf id ≠ some v) ∧
         ∀ k id v, h.config.stagedPairs[k]? = some (id, v) →
           (let f (offset size : Nat) : Nat := field (h.record 6 0) (4 + 4 * k + offset) size
            f 0 1 = id ∧ f 1 1 = 0 ∧ f 2 2 = v % 2 ^ 16)))

/-! ### The configuration unit -/

/-- CONFIG_SET (R116, R121): the checks in order, the detail of BAD_PARAM being the position of the first pair whose id or
value the parameter table does not allow; when all pass, every pair is applied to the staged set. -/
def Obligations.ConfigSetStagesEveryPairOrNone : Prop :=
  ∀ (s : State) (p : Port) (m : List Byte) (rest : List (List Byte)) (tag : Byte) (reserved : Nat) (pairs : List SetPair),
    Taking s p m rest → parseRequest m = some (.configSet tag reserved pairs) →
    (let h := s.hub.afterTaking p rest
     let bad (x : SetPair) : Bool := !paramInRange x.id.toNat x.value
     let checks := roleTable s.hub p tag (reserved != 0 || pairs.any (fun (x : SetPair) => x.reserved != 0)) ++
       [(s.hub.config.change.isSome, .busy, 1), (pairs.any bad, .badParam, (pairs.findIdx? bad).getD 0)]
     (∀ status detail, firstThatHolds checks = some (status, detail) →
       exec (.configSet p) s = after s (h.refuse p tag status detail)) ∧
       (firstThatHolds checks = none →
         exec (.configSet p) s = after s
           ({ h with config := { h.config with
               staged := pairs.foldl (fun (c : Params) (x : SetPair) => c.withValue x.id.toNat x.value) h.config.staged } }.accept p tag)))

/-- A value that the parameter table admits is read back once set, and no other parameter changes (R120, R121). The values it
admits are those of R120's table, and a parameter set has one value for each id of the table. -/
def Obligations.StagedParameterReadsBackAlone : Prop :=
  (∀ (c : Params) (id v : Nat), paramInRange id v = true →
     (c.withValue id v).valueOf id = some v ∧ ∀ j, j ≠ id → (c.withValue id v).valueOf j = c.valueOf j) ∧
  (∀ id v : Nat, paramInRange id v = true ↔
     (id = 0x01 ∧ (v = 4 ∨ v = 8)) ∨ (id = 0x03 ∧ (v = 1024 ∨ v = 2048 ∨ v = 4096)) ∨
       ∃ row ∈ [(0x02, 12, 16), (0x04, 2, 15), (0x05, 2, 15), (0x06, 4, 63), (0x07, 1, 15), (0x08, 2, 8),
           (0x09, 8, 255), (0x0A, 64, 16383), (0x0B, 8, 1023), (0x0C, 1, 64), (0x0D, 2, 16), (0x0E, 0, 1),
           (0x0F, 0, 15), (0x10, 0, 32), (0x11, 0, 32), (0x12, 0, 32), (0x13, 0, 32), (0x14, 0, 1), (0x15, 0, 1),
           (0x16, 0, 1), (0x17, 0, 1)],
         id = row.1 ∧ row.2.1 ≤ v ∧ v ≤ row.2.2) ∧
  ∀ c : Params,
    (let policy := match c.rowPolicy with
       | .keepOpen => 0
       | .closeAfter => 1
     let action (p : Port) : Nat := match c.conflictAction.get p with
       | .stall => 0
       | .reject => 1
     (∀ id, c.valueOf id ≠ none ↔ id ∈ paramIds) ∧
       paramIds.map c.valueOf =
         [c.banks, c.rowBits, c.page, c.tOpen, c.tClose, c.tHoldMin, c.tWriteRecover, c.readLatency, c.tUpkeep,
           c.upkeepInterval, c.retainExit, c.settleCount, c.bringupUpkeeps, policy, c.bypassLimit, c.quota.get 0,
           c.quota.get 1, c.quota.get 2, c.quota.get 3, action 0, action 1, action 2, action 3].map some)

/-- CONFIG_COMMIT against the checks of R116 and R123; a commit that passes is taken (R124): with `force` the table and the
fences are aborted, and a change of geometry empties the leases (R96); the pending change stands and the tag is
outstanding. -/
def Obligations.CommitIsRefusedInTheOrderOfR123OrTaken : Prop :=
  ∀ (s : State) (p : Port) (m : List Byte) (rest : List (List Byte)) (tag : Byte) (force reserved : Nat),
    Taking s p m rest → parseRequest m = some (.configCommit tag force reserved) →
    (let h := s.hub.afterTaking p rest
     let checks := commitTable s.hub p tag force reserved
     let a := s.hub.config.staged
     let b := s.hub.config.committed
     let geometry := a.banks != b.banks || a.rowBits != b.rowBits || a.page != b.page
     let g := h.commitAborts (force == 1) geometry
     (∀ status detail, firstThatHolds checks = some (status, detail) →
       exec (.configCommit p) s = after s (h.refuse p tag status detail)) ∧
       (firstThatHolds checks = none →
         exec (.configCommit p) s = after s
           ({ g with config := { g.config with change := some ⟨.commit (force == 1) geometry, p, tag, false⟩ } }.addTag
             p tag)))

/-- WINDOW_SET against the checks of R116 and R140; one that passes replaces the record of the named window of the named
port, or disables it. That a reserved bit of the rights byte is MALFORMED with the enable flag clear too is DEDUCED (log entry
12): R140 does not check the rights then. -/
def Obligations.WindowSetIsRefusedInTheOrderOfR140OrSets : Prop :=
  ∀ (s : State) (p : Port) (m : List Byte) (rest : List (List Byte)) (tag : Byte) (port window enable : Nat)
    (rights : Byte) (reserved base size target : Nat),
    Taking s p m rest →
    parseRequest m = some (.windowSet tag port window enable rights reserved base size target) →
    (let h := s.hub.afterTaking p rest
     let checks := windowTable s.hub p tag port window enable rights reserved base size target
     let n : Port := Fin.ofNat 4 port
     let record : Option Window :=
       if enable = 1 then some ⟨base, size, target, rights.getLsbD 0, rights.getLsbD 1⟩ else none
     (∀ status detail, firstThatHolds checks = some (status, detail) →
       exec (.windowSet p) s = after s (h.refuse p tag status detail)) ∧
       (firstThatHolds checks = none →
         exec (.windowSet p) s = after s
           ({ h with windows := h.windows.set n ((h.windows.get n).set (Fin.ofNat 4 window) record) }.accept p tag)))

/-- CLAIM and HANDOVER (R117, R118, R119): their checks in order; the role passes, every port whose link is UP is given a
CONTROL_CHANGED record, and the reply is OK. A HANDOVER to the holder itself changes nothing. -/
def Obligations.ClaimAndHandoverMoveTheRole : Prop :=
  ∀ (s : State) (p : Port) (m : List Byte) (rest : List (List Byte)) (tag : Byte) (reserved target : Nat),
    Taking s p m rest →
    (let h := s.hub.afterTaking p rest
     let give (q : Port) : Hub :=
       ({ h with config := { h.config with holder := some q } }.notifyUp .controlChanged q.val).accept p tag
     let t : Port := Fin.ofNat 4 target
     let claimChecks := [(reserved != 0, Status.malformed, 0), ((s.hub.layer p).tags.contains tag, .tagInUse, 0),
       (s.hub.config.holder.isSome, .noRole, match s.hub.config.holder with
         | some q => q.val
         | none => 0)]
     let handoverChecks := roleTable s.hub p tag (decide (3 < target) || reserved != 0) ++
       [((s.hub.link t).state != .up, .badParam, target)]
     (parseRequest m = some (.claim tag reserved) →
       (∀ status detail, firstThatHolds claimChecks = some (status, detail) →
         exec (.claim p) s = after s (h.refuse p tag status detail)) ∧
         (firstThatHolds claimChecks = none → exec (.claim p) s = after s (give p))) ∧
       (parseRequest m = some (.handover tag target reserved) →
         (∀ status detail, firstThatHolds handoverChecks = some (status, detail) →
           exec (.handover p) s = after s (h.refuse p tag status detail)) ∧
           (firstThatHolds handoverChecks = none →
             exec (.handover p) s = after s (if t = p then h.accept p tag else give t))))

/-- HUB_RESET (R116, R131): its checks in order; one that passes discards the work of every port (R24, R97), and the pending
change stands. -/
def Obligations.HubResetIsRefusedOrTaken : Prop :=
  ∀ (s : State) (p : Port) (m : List Byte) (rest : List (List Byte)) (tag : Byte) (reserved : Nat),
    Taking s p m rest → parseRequest m = some (.hubReset tag reserved) →
    (let g := (s.hub.afterTaking p rest).discardWork
     let checks := roleTable s.hub p tag (reserved != 0) ++
       [(s.hub.channel == .bringup || s.hub.config.change.isSome, .busy, 1)]
     (∀ status detail, firstThatHolds checks = some (status, detail) →
       exec (.hubReset p) s = after s ((s.hub.afterTaking p rest).refuse p tag status detail)) ∧
       (firstThatHolds checks = none →
         exec (.hubReset p) s = after s
           ({ g with config := { g.config with change := some ⟨.hubReset, p, tag, false⟩ } }.addTag p tag)))

/-- What a forced commit's abort and the discarding of a HUB_RESET leave (R21, R23, R24, R97): only the entry whose burst is
in flight, marked aborting; no fence; after a HUB_RESET no lease and no waiting request. Where tags name outstanding requests
(R158), a forced commit answers ABORTED, with the words done (R22), for every entry it frees, and with 0 for every fence: the
entries by age, then the fences, each in the place of a pending reply of its tag or at the tail (R23, R158), but for those of a
torn-down port. A HUB_RESET takes the tags and the pending replies of what it discards. Freed entries leave as O23 says.
When the geometry changes (R96) the lease table and the wait list are emptied: the waiting requests in order of the list, then
the GRANTING leases in order of slot, are answered ABORTED with 0; each GRANTED lease gives its owner a LEASE_LAPSED record
with its handle and raises the lapses count, in order of slot, which is the model's choice (log entry 26: R96 gives no order);
every slot keeps its generation. A commit's aborts are these two, the first where
it aborts and the second where the geometry changes, and otherwise the grants of the leases that the first has drained. -/
def Obligations.AbortsLeaveOnlyTheBurstInFlight : Prop :=
  (∀ h : Hub, EntryLaw h →
     (∀ e ∈ h.abortAnswered.table, e.aborting ≠ none ∧ ∃ x, h.scheduler.burst = some x ∧ x.entry = e.index) ∧
       (∀ p, (h.abortAnswered.layer p).fences = []) ∧
       (TagLaw h → ∀ e ∈ h.table, (∀ x, h.scheduler.burst = some x → x.entry ≠ e.index) →
         PendingReply.aborted e.tag e.wordsDone ∈ (h.abortAnswered.layer e.port).replies) ∧
       (∀ p, ∀ f ∈ (h.layer p).fences,
         PendingReply.aborted f.tag 0 ∈ (h.abortAnswered.layer p).replies) ∧
       (∀ e ∈ h.discardWork.table, e.aborting ≠ none ∧ ∃ x, h.scheduler.burst = some x ∧ x.entry = e.index) ∧
       (∀ p, (h.discardWork.layer p).fences = []) ∧
       (∀ x ∈ h.discardWork.leases.slots, x.lease = none) ∧ h.discardWork.leases.waits = [] ∧
       (∀ p, ∀ r ∈ (h.discardWork.layer p).replies, r.discardedByReset = false)) ∧
  (∀ h : Hub,
     (let flying (e : Entry) : Bool := e.phase == .active && h.scheduler.burst.map Burst.entry == some e.index
      let freed := h.table.filter (fun e => !flying e)
      let marked (kind : AbortKind) : List Entry := h.table.map (fun e =>
        if flying e = true then { e with aborting := if e.aborting = some .torn then some .torn else some kind } else e)
      let owed (p : Port) : List (Byte × Nat) :=
        (freed.filter (fun e => e.port == p && e.aborting != some .torn)).map (fun e => (e.tag, e.wordsDone)) ++
          (h.layer p).fences.map (fun f => (f.tag, 0))
      let answered (rs : List PendingReply) (x : Byte × Nat) : List PendingReply :=
        if rs.any (fun r => r.tag == x.1) = true then rs.map (fun r => if r.tag = x.1 then .aborted x.1 x.2 else r)
        else rs ++ [.aborted x.1 x.2]
      let discarded (r : PendingReply) : Bool := match r with
        | .wake _ => false
        | .commit _ _ => false
        | .hubReset _ => false
        | _ => true
      let gone (p : Port) : List Byte :=
        (freed.filter (fun e => e.port == p && e.aborting != some .torn)).map Entry.tag ++
          (h.layer p).fences.map Fence.tag ++ ((h.layer p).replies.filter discarded).map PendingReply.tag ++
          (h.leases.waits.filter (fun w => w.port == p)).map Waiting.tag ++ h.leases.slots.filterMap (grantingTag p)
      (∀ m : Quad MessageLayer,
        (∀ p, m.get p = { h.layer p with replies := (owed p).foldl answered (h.layer p).replies, fences := [] }) →
        h.abortAnswered =
          { h with table := marked .answered, messages := m }.removeEntries (freed.map Entry.index)) ∧
        ∀ m : Quad MessageLayer,
          (∀ p, m.get p = { h.layer p with
            tags := (h.layer p).tags.filter (fun t => !(gone p).contains t)
            replies := (h.layer p).replies.filter (fun r => !discarded r)
            fences := [] }) →
          h.discardWork =
            { h with
              table := marked .silent
              messages := m
              leases := { h.leases with
                slots := h.leases.slots.map (fun (x : LeaseSlot) => { x with lease := none })
                waits := [] } }.removeEntries (freed.map Entry.index))) ∧
  (∀ h : Hub,
     (let g := h.emptyLeases
      let granted := h.leases.slots.filter (fun x => match x.lease with
        | some ⟨_, _, _, _, .granted _⟩ => true
        | _ => false)
      let owned (p : Port) : List LeaseSlot := granted.filter (fun x => match x.lease with
        | some l => l.owner == p
        | none => false)
      let lapsed (r : Option NoticeRecord) (x : LeaseSlot) : Option NoticeRecord := some (match r with
        | none => ⟨1, 0, [⟨x.id, x.generation⟩]⟩
        | some r => ⟨min (r.count + 1) 255, 0,
          if r.handles.length < 16 then r.handles ++ [⟨x.id, x.generation⟩] else r.handles⟩)
      g.leases.slots = h.leases.slots.map (fun (x : LeaseSlot) => { x with lease := none }) ∧ g.leases.waits = [] ∧
        g.leases.grants = h.leases.grants ∧
        g.leases.lapses =
          (if granted = [] then h.leases.lapses else min (h.leases.lapses + granted.length) 0xFFFFFFFF) ∧
        (∀ p, (let m := g.layer p
          m.replies = (h.layer p).replies ++
            (h.leases.waits.filter (fun w => w.port == p)).map (fun w => PendingReply.leaseEnd w.tag .aborted 0) ++
            (h.leases.slots.filterMap (grantingTag p)).map (fun t => PendingReply.leaseEnd t .aborted 0) ∧
          m.notices = { (h.layer p).notices with leaseLapsed := (owned p).foldl lapsed (h.layer p).notices.leaseLapsed } ∧
          { m with replies := [], notices := NoticeSet.empty } =
            { h.layer p with replies := [], notices := NoticeSet.empty })) ∧
        { g with leases := h.leases, messages := h.messages } = h)) ∧
  ∀ h : Hub, h.commitAborts true true = h.abortAnswered.emptyLeases ∧
    h.commitAborts false true = h.emptyLeases ∧ h.commitAborts false false = h ∧
    (SlotsLaw h → h.commitAborts true false = (List.finRange 16).foldl Hub.grantIfDrained h.abortAnswered)

/-- SETTLE_END (R127) and COMMIT_COPY (R125, R126): SETTLE ends at its time, and CLOSE begins; the copy, with nothing in
flight and the memory out of retention, aborts what is left, puts the staged set in force, starts SETTLE of SETTLE_COUNT ×
UPKEEP_INTERVAL periods, stops the interval timer and tells every UP port; the memory's contents become undefined if the
geometry changes. -/
def Obligations.CommitCopyStartsBringup : Prop :=
  ∀ s : State, Running s →
    (∀ r, s.hub.config.bringup = some r → r.phase = .settle →
      exec .settleEnd s = after s
        { s.hub with
          now := max s.hub.now r.settleEnd
          config := { s.hub.config with bringup := some { r with phase := .close } } }) ∧
      ∀ force geometry p tag torn, s.hub.config.change = some ⟨.commit force geometry, p, tag, torn⟩ →
        s.hub.scheduler.burst = none → s.hub.scheduler.flight = none → s.hub.dram.retention = false →
        (let h := s.hub.commitAborts true geometry
         let c := s.hub.config.staged
         exec .commitCopy s = after s
           ({ h with
              channel := .bringup
              dram := if geometry then { h.dram with data := [], codes := [], epoch := h.dram.epoch + 1 } else h.dram
              upkeep := { h.upkeep with timer := none, debt := 0, level := .clear }
              rest := { h.rest with abandoning := false, leaving := none }
              config := { h.config with
                committed := c
                change := none
                bringup := some ⟨.settle, s.hub.now + c.settleCount * c.upkeepInterval, 0, p, tag, torn, geometry⟩ }
            }.notifyUp .channelState 1))

/-- RESET_EVENT (R132): with no bank command, burst or channel-wide command in progress and the memory out of retention, the
work and the items of every unit take their power-up values; the holder, the links, the tags and the generations of the
slots stay; of the tags those of discarded work leave and the others stay; the deferred WAKEs are answered, every UP port is
told, and the HUB_RESET is answered unless its port has been torn down. That lease requests that became replied during the
wait lose their pending replies too is DEDUCED (log entry 21). -/
def Obligations.ResetEventRestoresTheUnits : Prop :=
  ∀ (s : State) (p : Port) (tag : Byte) (torn : Bool), Running s →
    s.hub.config.change = some ⟨.hubReset, p, tag, torn⟩ → s.hub.scheduler.burst = none →
    s.hub.scheduler.flight = none → (∀ k ∈ s.hub.scheduler.banks, k.state = .closed ∨ k.state = .opened) →
    s.hub.dram.retention = false →
    ∃ h, exec .resetEvent s = after s h ∧ h.channel = .unready ∧ h.table = [] ∧
      h.windows = State.reset.hub.windows ∧
      h.scheduler = State.reset.hub.scheduler ∧
      { h.upkeep with items := Items.none } = State.reset.hub.upkeep ∧
      { h.rest with items := Items.none } = State.reset.hub.rest ∧
      h.leases.slots = s.hub.leases.slots.map (fun x => { x with lease := none }) ∧ h.leases.waits = [] ∧
      h.leases.grants = 0 ∧ h.leases.lapses = 0 ∧
      h.config.holder = s.hub.config.holder ∧ h.config.change = none ∧
      h.config.staged = Params.default ∧ h.config.committed = Params.default ∧
      h.check = ⟨0, 0, none⟩ ∧ h.dram.data = [] ∧ h.dram.codes = [] ∧ h.dram.epoch = s.hub.dram.epoch + 1 ∧
      h.links = s.hub.links ∧
      (∀ q, (h.layer q).fences = [] ∧ (h.layer q).taken = 0 ∧ (h.layer q).completed = 0 ∧ (h.layer q).refusals = 0 ∧
        (h.layer q).notices = (if (s.hub.link q).state = .up then
          { NoticeSet.empty with channelState := some ⟨1, 0, []⟩ } else NoticeSet.empty)) ∧
      (∀ q t, t ∈ (h.layer q).tags ↔ t ∈ (s.hub.layer q).tags ∧
        (∀ e ∈ s.hub.table, e.port = q → e.aborting ≠ some .torn → e.tag ≠ t) ∧
        (∀ f ∈ (s.hub.layer q).fences, f.tag ≠ t) ∧
        (∀ r ∈ (s.hub.layer q).replies, r.discardedByReset = true → r.tag ≠ t) ∧
        (∀ w ∈ s.hub.leases.waits, w.port = q → w.tag ≠ t) ∧
        ∀ x ∈ s.hub.leases.slots, grantingTag q x ≠ some t) ∧
      (∀ q, (h.layer q).replies = (s.hub.layer q).replies.filter (fun r => !r.discardedByReset) ++
        (s.hub.rest.wakes.filter (fun w => w.1 == q)).map (fun w => PendingReply.wake w.2) ++
        (if torn = false ∧ q = p then [PendingReply.hubReset tag] else []))

/-! ### Replies and notices -/

/-- PLACE_REPLY of a DONE entry (R16, R17, R159): the reply carries its status, its flagged words and, for a READ, its data;
it leaves the pending list and its tag the tag set, the completed count rises, and the entry is freed. Freeing entries (R2,
R17, R31, R83): they leave the table, the opened-for indices and the drain sets, and then what names or watches them is
released (R13, R19); nothing else changes. The leases that this drains are granted in order of slot id (R84): a GRANTING lease
with an empty drain set becomes GRANTED until the present time + its duration, the grants count rises and the OK with its
handle becomes a pending reply; any other slot stays as it is. The entry with an index is the one of the table that has it. -/
def Obligations.PlacedEntryReplyFreesItsEntry : Prop :=
  (∀ (s : State) (p : Port) (tag : Byte) (i : Index) (rest : List PendingReply) (e : Entry),
     Running s → (s.hub.layer p).replies = .entry tag i :: rest → (s.hub.link p).outbound.length < 16 →
     s.hub.entry i = some e →
     (let body := match e.kind with
        | .read => e.buffer.flatMap wordBytes
        | .write => []
      let status := match e.status with
        | .ok => Status.ok
        | .corrected => .corrected
        | .damaged => .damaged
      let h := (s.hub.place p (.reply ⟨e.tag, status, e.flagged, body⟩)).onMessages p (fun m =>
        { m with
          tags := m.tags.filter (fun t => t != tag)
          replies := rest
          completed := rise32 m.completed })
      exec (.placeReply p) s = after s (h.freeEntries [i]))) ∧
  (∀ (h : Hub) (gone : List Index), SlotsLaw h →
     h.freeEntries gone = (List.finRange 16).foldl Hub.grantIfDrained (h.removeEntries gone)) ∧
  (∀ (h : Hub) (i : Index) (e : Entry), IndexLaw h → (h.entry i = some e ↔ e ∈ h.table ∧ e.index = i)) ∧
  (∀ (h : Hub) (gone : List Index),
     (let g := h.removeEntries gone
      let left := h.table.filter (fun e => decide (e.index ∉ gone))
      g.table.length = left.length ∧
        (∀ ahead e behind, left = ahead ++ e :: behind → g.table[ahead.length]? = some (reordered gone ahead e)) ∧
        g.scheduler.banks.length = h.scheduler.banks.length ∧
        (∀ (b : Nat) (k : Bank), h.scheduler.banks[b]? = some k → g.scheduler.banks[b]? =
          some { k with openedFor := k.openedFor.filter (fun i => decide (i ∉ gone)) }) ∧
        g.leases.slots.length = h.leases.slots.length ∧
        (∀ (n : Nat) (x : LeaseSlot), h.leases.slots[n]? = some x →
          ((∀ l duration deadline drain tag, x.lease = some l → l.phase = .granting duration deadline drain tag →
            g.leases.slots[n]? = some { x with lease := some { l with
              phase := .granting duration deadline (drain.filter (fun i => decide (i ∉ gone))) tag } }) ∧
            (∀ l expiry, x.lease = some l → l.phase = .granted expiry → g.leases.slots[n]? = some x) ∧
            (x.lease = none → g.leases.slots[n]? = some x))) ∧
        (∀ p, (let m := g.layer p
          let l := h.layer p
          let watched (f : Fence) : List Index := f.watch.filter (fun i => decide (i ∉ gone))
          m.fences = l.fences.map (fun f => { f with watch := watched f }) ∧
            m.replies = l.replies ++
              (l.fences.filter (fun f => decide (f.watch ≠ [] ∧ watched f = []))).map
                (fun f => PendingReply.fence f.tag) ∧
            { m with fences := l.fences, replies := l.replies } = l)) ∧
        { g with
          table := h.table
          messages := h.messages
          scheduler := { g.scheduler with banks := h.scheduler.banks }
          leases := { g.leases with slots := h.leases.slots } } = h)) ∧
  ∀ (h : Hub) (x : LeaseSlot), SlotsLaw h → x ∈ h.leases.slots →
    (∀ l duration deadline tag, x.lease = some l → l.phase = .granting duration deadline [] tag →
      h.grantIfDrained x.id =
        { h with leases := { h.leases with
            slots := h.leases.slots.map (fun (y : LeaseSlot) =>
              if y.id = x.id then { x with lease := some { l with phase := .granted (h.hubTime + duration) } } else y)
            grants := min (h.leases.grants + 1) 0xFFFFFFFF } }.defer l.owner
          (.leaseGrant tag ⟨x.id, x.generation⟩ duration)) ∧
      ((∀ l duration deadline tag, x.lease = some l → l.phase ≠ .granting duration deadline [] tag) →
        h.grantIfDrained x.id = h)

/-- PLACE_REPLY of the other pending replies (R19, R22, R84, R86, R104, R129, R132, R159): the reply of each kind; the
placing of a fence's reply takes the fence off the list and lowers the fences-ahead counts of its port's entries, and the
others have no further effect. -/
def Obligations.PlacedRepliesOfTheOtherKinds : Prop :=
  ∀ (s : State) (p : Port) (r : PendingReply) (rest : List PendingReply),
    Running s → (s.hub.layer p).replies = r :: rest → (s.hub.link p).outbound.length < 16 →
    (let put (status : Status) (detail : Nat) (body : List Byte) : Hub :=
       (s.hub.place p (.reply ⟨r.tag, status, detail, body⟩)).onMessages p (fun m =>
         { m with
           tags := m.tags.filter (fun t => t != r.tag)
           replies := rest })
     match r with
     | .entry _ _ => True
     | .fence tag =>
       exec (.placeReply p) s = after s
         (let h := (put .ok 0 []).onMessages p (fun m =>
            { m with fences := m.fences.filter (fun f => f.tag != tag) })
          { h with table := h.table.map (fun e =>
              if e.port = p then
                { e with holds := { e.holds with fencesAhead := e.holds.fencesAhead - 1 } }.promote
              else e) })
     | .aborted _ detail => exec (.placeReply p) s = after s (put .aborted detail [])
     | .leaseGrant _ ⟨id, generation⟩ duration =>
       exec (.placeReply p) s = after s
         (put .ok 0 ([BitVec.ofNat 8 id.val, generation] ++ leBytes 2 duration))
     | .leaseEnd _ status detail => exec (.placeReply p) s = after s (put status detail [])
     | .wake _ => exec (.placeReply p) s = after s (put .ok 0 [])
     | .commit _ detail => exec (.placeReply p) s = after s (put .ok detail [])
     | .hubReset _ => exec (.placeReply p) s = after s (put .ok 0 []))

/-- PLACE_NOTICE (R159, R161): with no reply pending and a place free, the record of the lowest kind present becomes a
NOTICE and leaves the notice set. What giving a record does (R161): where none of its kind is present, one with count 1, the
detail and the handle is added; otherwise its count rises by one up to 255, its detail becomes the given one and the handle
joins the list while that has fewer than 16; the records of the other kinds and the rest of the message layer stay. A record
given to a port touches that port alone; one given to every UP port touches the ports whose link is UP. -/
def Obligations.PlacedNoticeIsTheFirstPresent : Prop :=
  (∀ (s : State) (p : Port) (k : NoticeKind) (r : NoticeRecord),
     Running s → (s.hub.layer p).replies = [] → (s.hub.link p).outbound.length < 16 →
     (s.hub.layer p).notices.get k = some r →
     (∀ j : NoticeKind, j.code < k.code → (s.hub.layer p).notices.get j = none) →
     exec (.placeNotice p) s = after s
       ((s.hub.place p (.notice k r)).onMessages p (fun m =>
         { m with notices := match k with
             | .channelState => { m.notices with channelState := none }
             | .controlChanged => { m.notices with controlChanged := none }
             | .leaseLapsed => { m.notices with leaseLapsed := none }
             | .upkeepOverrun => { m.notices with upkeepOverrun := none } }))) ∧
  (∀ (m : MessageLayer) (k : NoticeKind) (detail : Nat) (handle : Option Handle),
     (let n := (m.give k detail handle).notices
      n.get k = some (match m.notices.get k with
          | none => ⟨1, detail, handle.toList⟩
          | some r => ⟨min (r.count + 1) 255, detail,
            if r.handles.length < 16 then r.handles ++ handle.toList else r.handles⟩) ∧
        (∀ j, j ≠ k → n.get j = m.notices.get j) ∧ { m.give k detail handle with notices := m.notices } = m)) ∧
  ∀ (h : Hub) (p : Port) (k : NoticeKind) (detail : Nat) (handle : Option Handle),
    (∀ q, (h.notify p k detail handle).layer q =
        if q = p then (h.layer p).give k detail handle else h.layer q) ∧
      { h.notify p k detail handle with messages := h.messages } = h ∧
      (∀ q, (h.notifyUp k detail).layer q =
        if (h.link q).state = .up then (h.layer q).give k detail none else h.layer q) ∧
      { h.notifyUp k detail with messages := h.messages } = h

/-! ### Links -/

/-- A good MESSAGE frame (R168, R170, R171): in UP, the frame in sequence is accepted into a free place, or answered NAK FULL
when there is none; a frame ahead of it is answered NAK ORDER once; a repeat makes an acknowledgement owed. In TRAINING it is
discarded. The sequence comparison is modulo 256. The frame is what the symbols of the line hand over, which leave the
receiving side at `r` (R181). -/
def Obligations.MessageFrameIsPlacedByItsSequence : Prop :=
  ∀ (s : State) (p : Port) (line : List LineSymbol) (frame : List Byte) (r : Receiver) (seq : Byte)
    (payload : List Byte), Hears s p line (.delimited frame) r → parseFrame frame = some (.message seq payload) →
    (let l := { s.hub.link p with receiver := r }
     let d := (seq - l.expected).toNat
     let owed := some (l.ackOwed.getD (s.hub.now + 1600))
     let nak (reason : NakReason) : Link :=
       { l with
         corrupt := 0
         nakMark := true
         wire := l.wire ++ [frameBytes 3 0 [l.expected, reason.code]] }
     let gives (m : Link) : Prop := exec (.messageFrameReceived p line) s = after s (s.hub.onLink p (fun _ => m))
     (LinkUp s p →
       (d = 0 → l.inbound.length < 4 → gives
         { l with
           corrupt := 0
           inbound := l.inbound ++ [payload]
           expected := l.expected + 1
           nakMark := false
           ackOwed := owed }) ∧
         (d = 0 → 4 ≤ l.inbound.length → gives (nak .full)) ∧
         (1 ≤ d → d ≤ 128 → gives (if l.nakMark = true then { l with corrupt := 0 } else nak .order)) ∧
         (129 ≤ d → gives { l with corrupt := 0, ackOwed := owed })) ∧
       (LinkTraining s p → exec (.messageFrameReceived p line) s = after s (s.hub.onLink p (fun _ => l))))

/-- A good ACK in UP (R173): the frames up to the acknowledged one leave the replay list, the timer and the consecutive
replays start again, the far-end room is taken, the full wait ends if there is room, and a resend point whose frame has left
moves to the head of the list. In TRAINING it is discarded (R168). The line's symbols hand over the frame and leave the
receiving side at `r` (R181). -/
def Obligations.AckReleasesFramesAndTakesTheRoom : Prop :=
  ∀ (s : State) (p : Port) (line : List LineSymbol) (frame : List Byte) (r : Receiver) (n : Byte) (room : Nat),
    Hears s p line (.delimited frame) r → parseFrame frame = some (.ack n room) →
    (let l := { s.hub.link p with receiver := r }
     let found := l.replay.any (fun f => f.seq == n)
     let left := if found then (l.replay.dropWhile (fun f => f.seq != n)).drop 1 else l.replay
     let wanted := if l.fullWait = true ∧ 0 < room ∧ l.resend = none then left.head?.map SentFrame.seq else l.resend
     let m : Link :=
       { l with
         corrupt := 0
         replay := left
         replays := if found then 0 else l.replays
         replayTimer := if found then (if left = [] then none else some (s.hub.now + 12800)) else l.replayTimer
         farRoom := room
         fullWait := l.fullWait && room == 0
         resend := match wanted with
           | some q => if left.any (fun f => f.seq == q) then some q else left.head?.map SentFrame.seq
           | none => none }
     (LinkUp s p → exec (.ackReceived p line) s = after s (s.hub.onLink p (fun _ => m))) ∧
       (LinkTraining s p → exec (.ackReceived p line) s = after s (s.hub.onLink p (fun _ => l))))

/-- A good NAK in UP (R174): one that names neither a frame of the replay list nor the send sequence changes nothing but the
count of corrupt frames; otherwise the frames ahead of the named one leave, and CORRUPT and ORDER set the resend point to it,
FULL sets the room to 0 and starts the full wait. A resend point whose frame has left is moved as by an ACK (log entry 11).
In TRAINING it is discarded (R168). The line's symbols hand over the frame and leave the receiving side at `r` (R181). -/
def Obligations.NakMovesTheResendPoint : Prop :=
  ∀ (s : State) (p : Port) (line : List LineSymbol) (frame : List Byte) (r : Receiver) (e : Byte)
    (reason : NakReason), Hears s p line (.delimited frame) r → parseFrame frame = some (.nak e reason) →
    (let l := { s.hub.link p with receiver := r }
     let found := l.replay.any (fun f => f.seq == e)
     let left := if found then l.replay.dropWhile (fun f => f.seq != e) else []
     let cut := decide (left.length < l.replay.length)
     let loaded := some (s.hub.now + 12800)
     let mended := match l.resend with
       | some q => if left.any (fun f => f.seq == q) then some q else left.head?.map SentFrame.seq
       | none => none
     let c : Link :=
       if cut = true then
         { l with
           corrupt := 0
           replay := left
           replays := 0
           replayTimer := if left = [] then none else loaded
           resend := mended }
       else { l with corrupt := 0 }
     let m : Link :=
       if found = false ∧ e ≠ l.sendSeq then { l with corrupt := 0 }
       else match reason with
         | .full =>
           { c with farRoom := 0, fullWait := true, replays := 0, resend := if found = true then some e else c.resend }
         | _ => if found = true then { c with resend := some e, replayTimer := loaded } else c
     (LinkUp s p → exec (.nakReceived p line) s = after s (s.hub.onLink p (fun _ => m))) ∧
       (LinkTraining s p → exec (.nakReceived p line) s = after s (s.hub.onLink p (fun _ => l))))

/-- Good ALIGN and READY frames (R167, R168, R102): in TRAINING they move the port to the READY step, a READY gives the
far-end room, and the link comes UP at the READY if the port has sent one; in UP an ALIGN takes the link DOWN and a READY is
answered with one READY. What training sends (R167): an ALIGN in the ALIGN step, a READY in the READY step, the link coming UP
at the READY sent if one has been received; the training timer starts training again. That its expiry also forgets the READY
sent is DEDUCED (log entry 5). The line's symbols hand over the frame and leave the receiving side at `r` (R181). -/
def Obligations.TrainingFollowsR167AndR168 : Prop :=
  (∀ (s : State) (p : Port) (line : List LineSymbol) (frame : List Byte) (r : Receiver),
     Hears s p line (.delimited frame) r →
     (let l := { s.hub.link p with receiver := r }
      let h := s.hub.onLink p (fun _ => l)
      (parseFrame frame = some .align →
        (LinkTraining s p →
          exec (.alignReceived p line) s = after s (s.hub.onLink p (fun _ => { l with step := some .ready }))) ∧
          (LinkUp s p → exec (.alignReceived p line) s = after s (h.teardown p))) ∧
        ∀ room, parseFrame frame = some (.ready room) →
          (LinkTraining s p → l.readySent = false →
            exec (.readyReceived p line) s = after s (s.hub.onLink p (fun _ =>
              { l with step := some .ready, farReady := true, farRoom := room }))) ∧
            (LinkTraining s p → l.readySent = true →
              exec (.readyReceived p line) s = after s (linkUpWith h p room)) ∧
            (LinkUp s p →
              exec (.readyReceived p line) s = after s (s.hub.onLink p (fun _ =>
                { l with
                  corrupt := 0
                  wire := l.wire ++ [frameBytes 5 0 [BitVec.ofNat 8 (4 - l.inbound.length)]] }))))) ∧
  (∀ (s : State) (p : Port), LinkTraining s p →
     (let l := s.hub.link p
      let ready := l.wire ++ [frameBytes 5 0 [BitVec.ofNat 8 (4 - l.inbound.length)]]
      (l.step = some .align →
        exec (.alignSent p) s = after s (s.hub.onLink p (fun _ =>
          { l with wire := l.wire ++ [frameBytes 4 0 []] }))) ∧
        (l.step = some .ready → l.farReady = false →
          exec (.readySent p) s = after s (s.hub.onLink p (fun _ => { l with wire := ready, readySent := true }))) ∧
        (l.step = some .ready → l.farReady = true →
          exec (.readySent p) s =
            after s (linkUpWith (s.hub.onLink p (fun _ => { l with wire := ready })) p l.farRoom)) ∧
        ∀ t, l.trainingTimer = some t →
          exec (.trainingTimerExpiry p) s = after s ({ s.hub with now := max s.hub.now t }.onLink p (fun _ =>
            { l with
              step := some .align
              farReady := false
              readySent := false
              trainingTimer := some (max s.hub.now t + 800000) }))))

/-- A corrupt frame (R168, R169): in UP it is counted, the eighth in a row takes the link DOWN, and the others are answered
NAK CORRUPT if the NAK mark is clear; in TRAINING it is discarded. The line's symbols hand over the frame and leave the receiving side at
`r` (R181). -/
def Obligations.CorruptFramesAreCountedAndAnswered : Prop :=
  ∀ (s : State) (p : Port) (line : List LineSymbol) (frame : LineFrame) (r : Receiver),
    Hears s p line frame r → lineCorrupt frame = true →
    (let l := { s.hub.link p with receiver := r }
     let h := s.hub.onLink p (fun _ => l)
     (LinkUp s p → 7 ≤ l.corrupt → exec (.corruptFrame p line) s = after s (h.teardown p)) ∧
       (LinkUp s p → l.corrupt < 7 → l.nakMark = true →
         exec (.corruptFrame p line) s = after s (s.hub.onLink p (fun _ => { l with corrupt := l.corrupt + 1 }))) ∧
       (LinkUp s p → l.corrupt < 7 → l.nakMark = false →
         exec (.corruptFrame p line) s = after s (s.hub.onLink p (fun _ =>
           { l with
             corrupt := l.corrupt + 1
             nakMark := true
             wire := l.wire ++ [frameBytes 3 0 [l.expected, 1]] }))) ∧
       (LinkTraining s p → exec (.corruptFrame p line) s = after s h))

/-- What UP sends (R171, R172, R174): an ACK pays what is owed, naming the sequence before the expected one and the room; a
message of the outbound list goes out in a new frame; a frame of the replay list is sent again, and the resend point moves
on. -/
def Obligations.UpSendsAcksMessagesAndRepeats : Prop :=
  ∀ (s : State) (p : Port), LinkUp s p →
    (let l := s.hub.link p
     (l.ackOwed ≠ none →
       exec (.ackSent p) s = after s (s.hub.onLink p (fun _ =>
         { l with
           ackOwed := none
           wire := l.wire ++ [frameBytes 2 0 [l.expected - 1, BitVec.ofNat 8 (4 - l.inbound.length)]] }))) ∧
       (∀ m rest, l.outbound = m :: rest → l.replay.length < 12 → 0 < l.farRoom → l.resend = none →
         l.fullWait = false →
         exec (.messageFrameSent p) s = after s (s.hub.onLink p (fun _ =>
           { l with
             outbound := rest
             sendSeq := l.sendSeq + 1
             farRoom := l.farRoom - 1
             replay := l.replay ++ [⟨l.sendSeq, m⟩]
             replayTimer := if l.replay = [] then some (s.hub.now + 12800) else l.replayTimer
             wire := l.wire ++ [frameBytes 1 l.sendSeq m.bytes] }))) ∧
       ∀ q sent f rest, l.resend = some q → l.replay = sent ++ f :: rest → f.seq = q →
         (∀ x ∈ sent, x.seq ≠ q) → l.fullWait = false →
         exec (.frameResent p) s = after s (s.hub.onLink p (fun _ =>
           { l with
             resend := rest.head?.map SentFrame.seq
             wire := l.wire ++ [frameBytes 1 q f.message.bytes] })))

/-- The replay timer and the room timer (R175): the expiry at four consecutive replays takes the link DOWN; otherwise it is
counted, the timer is loaded, and the list is sent again from its head, or in the full wait its head alone. The room timer
frames the head of the outbound list as a probe, which uses no room: the far-end room stays 0 (R172; the room timer runs only
with the room at 0, which every step keeps). -/
def Obligations.LinkTimersReplayAndProbe : Prop :=
  ∀ (s : State) (p : Port) (t : Nat), LinkUp s p →
    (let l := s.hub.link p
     let h : Hub := { s.hub with now := max s.hub.now t }
     (∀ f rest, l.replayTimer = some t → l.replay = f :: rest →
       (4 ≤ l.replays → exec (.replayTimerExpiry p) s = after s (h.teardown p)) ∧
         (l.replays < 4 → exec (.replayTimerExpiry p) s = after s (h.onLink p (fun _ =>
           { l with
             replays := l.replays + 1
             replayTimer := some (h.now + 12800)
             wire := if l.fullWait = true then l.wire ++ [frameBytes 1 f.seq f.message.bytes] else l.wire
             resend := if l.fullWait = true then l.resend else some f.seq })))) ∧
       ∀ m rest, l.roomTimer = some t → l.outbound = m :: rest → l.replay = [] → l.farRoom = 0 →
         exec (.roomTimerExpiry p) s = after s (h.onLink p (fun _ =>
           { l with
             outbound := rest
             sendSeq := l.sendSeq + 1
             farRoom := 0
             replay := [⟨l.sendSeq, m⟩]
             replayTimer := some (h.now + 12800)
             wire := l.wire ++ [frameBytes 1 l.sendSeq m.bytes] })))

/-- What the teardown of a port leaves (R177, R25, R95, R102, R116, R165): a link in training with nothing on its lists, a
message layer with nothing outstanding but its counters, no lease and no waiting request of the port, no entry of it but one
whose burst is in flight, marked aborting, no vote, no deferred WAKE, and the port not the holder; the links of the other ports
are as they were. That the receiving side keeps its place in the line coding is DEDUCED (log entry 25). The other ports: their
votes, tags, counters and fences stay, and their pending replies but for those that join the tail; their leases stand, and their
entries stay, but for the holds that are worked out again; where the port held the control role, each whose link is UP is given
CONTROL_CHANGED with detail 0xFF (R119). A pending change or a bring-up record of the port is marked torn (R129, R132). Channel,
windows, parameters, upkeep, checks, memory, lapses and the lanes are untouched, and of a bank at most the opened-for index. The
whole event: the port's work goes, its entries are freed as O23 says, the held entries are re-checked (O60) and the wait list
scanned (O50), and the leases that this drains are granted; that order within the event is DEDUCED (log entry 10). -/
def Obligations.TeardownLeavesNothingOfThePort : Prop :=
  (∀ (h : Hub) (p : Port),
    (let g := h.teardown p
     g.link p = { Link.powerUp with
         trainingTimer := some (h.now + 800000)
         receiver := (h.link p).receiver
         wire := (h.link p).wire } ∧
       (∀ q, q ≠ p → g.link q = h.link q) ∧
       ((g.layer p).tags = [] ∧ (g.layer p).replies = [] ∧ (g.layer p).fences = [] ∧
         (g.layer p).notices = NoticeSet.empty) ∧
       (∀ l, Standing g l → l.owner ≠ p) ∧ (∀ w ∈ g.leases.waits, w.port ≠ p) ∧
       (∀ e ∈ g.table, e.port = p → e.aborting = some .torn ∧ ∃ x, h.scheduler.burst = some x ∧ x.entry = e.index) ∧
       g.rest.votes.get p = false ∧ (∀ w ∈ g.rest.wakes, w.1 ≠ p) ∧ g.config.holder ≠ some p ∧
       (h.config.holder ≠ some p → g.config.holder = h.config.holder))) ∧
  (∀ (h : Hub) (p : Port),
    (let g := h.teardown p
     let core (e : Entry) : Entry :=
       { e with holds := Holds.none, phase := if e.phase = .held then .queued else e.phase }
     g.layer p = ⟨[], [], NoticeSet.empty, [], (h.layer p).taken, (h.layer p).completed, (h.layer p).refusals⟩ ∧
       (∀ q, q ≠ p →
         (g.layer q).tags = (h.layer q).tags ∧ (g.layer q).taken = (h.layer q).taken ∧
           (g.layer q).completed = (h.layer q).completed ∧ (g.layer q).refusals = (h.layer q).refusals ∧
           (g.layer q).fences.map Fence.tag = (h.layer q).fences.map Fence.tag ∧
           (∃ more, (g.layer q).replies = (h.layer q).replies ++ more) ∧
           (g.layer q).notices = (if h.config.holder = some p ∧ (h.link q).state = .up then
             ((h.layer q).give .controlChanged 0xFF none).notices else (h.layer q).notices) ∧
           g.rest.votes.get q = h.rest.votes.get q) ∧
       (IndexLaw h → (g.table.filter (fun e => e.port != p)).map core =
         (h.table.filter (fun e => e.port != p)).map core) ∧
       (SlotsLaw h → ∀ l, Standing h l → l.owner ≠ p →
         ∃ m, Standing g m ∧ m.owner = l.owner ∧ m.base = l.base ∧ m.length = l.length ∧ m.mode = l.mode) ∧
       g.rest = { h.rest with
         votes := h.rest.votes.set p false
         wakes := h.rest.wakes.filter (fun w => w.1 != p) } ∧
       g.config = { h.config with
         holder := if h.config.holder = some p then none else h.config.holder
         change := h.config.change.map (fun c => if c.port = p then { c with torn := true } else c)
         bringup := h.config.bringup.map (fun r => if r.port = p then { r with torn := true } else r) } ∧
       g.channel = h.channel ∧ g.windows = h.windows ∧ g.upkeep = h.upkeep ∧ g.check = h.check ∧ g.dram = h.dram ∧
       g.now = h.now ∧ g.resetLow = h.resetLow ∧ g.leases.lapses = h.leases.lapses ∧
       g.scheduler.banks.map (fun (k : Bank) => { k with openedFor := none }) =
         h.scheduler.banks.map (fun (k : Bank) => { k with openedFor := none }) ∧
       { g.scheduler with banks := h.scheduler.banks } = h.scheduler)) ∧
  ∀ (h : Hub) (p : Port), SlotsLaw h →
    (let flying (e : Entry) : Bool := e.phase == .active && h.scheduler.burst.map Burst.entry == some e.index
     let freed := h.table.filter (fun e => e.port == p && !flying e)
     let a : Hub :=
       { h with
         links := h.links.set p { Link.powerUp with
           trainingTimer := some (h.now + 800000)
           receiver := (h.link p).receiver
           wire := (h.link p).wire }
         messages := h.messages.set p
           ⟨[], [], NoticeSet.empty, [], (h.layer p).taken, (h.layer p).completed, (h.layer p).refusals⟩
         leases := { h.leases with
           slots := h.leases.slots.map (fun (x : LeaseSlot) =>
             if x.lease.any (fun l => l.owner == p) = true then { x with lease := none } else x)
           waits := h.leases.waits.filter (fun w => w.port != p) }
         table := h.table.map (fun (e : Entry) =>
           if e.port = p ∧ flying e = true then { e with aborting := some .torn } else e) }
     let b := (List.finRange 16).foldl Hub.grantIfDrained (a.removeEntries (freed.map Entry.index)).recheck.scanWaits
     let c : Hub :=
       { b with
         rest := { h.rest with
           votes := h.rest.votes.set p false
           wakes := h.rest.wakes.filter (fun w => w.1 != p) }
         config := { h.config with
           holder := if h.config.holder = some p then none else h.config.holder
           change := h.config.change.map (fun c => if c.port = p then { c with torn := true } else c)
           bringup := h.config.bringup.map (fun r => if r.port = p then { r with torn := true } else r) } }
     h.teardown p = if h.config.holder = some p then c.notifyUp .controlChanged 0xFF else c)

/-! ### The row command lane -/

/-- The rotation of the row command lane (R36, R37): while a channel-wide command is ready it serves no bank; otherwise it
serves the ready bank that comes first from the bank after the last bank served, and none only when no bank is ready. Where
the last bank served is no bank of the table any more, the turn begins at bank 0: the model's choice (log entry 24). A
channel-wide command is ready when it is demanded and its conditions hold (R35): ALL_CLOSE with nothing in flight; MODE_LOAD,
UPKEEP and RETAIN_ENTER with every bank CLOSED and no channel-wide command in flight, the last two with no burst in flight; an
UPKEEP for the upkeep unit only while no change is pending (R69); RETAIN_EXIT with the memory in retention. -/
def Obligations.LaneServesTheNextReadyBankInRotation : Prop :=
  ∀ h : Hub,
    (let n := h.scheduler.banks.length
     let turn (b : Nat) : Nat := if h.scheduler.lastServed < n then (b + n - 1 - h.scheduler.lastServed) % n else b
     (h.channelCommandReady = true → h.laneServes = none) ∧
       (h.channelCommandReady = false →
         (∀ b c, h.laneServes = some (b, c) →
           h.bankReady b = some c ∧ ∀ k < n, h.bankReady k ≠ none → turn b ≤ turn k) ∧
           (h.laneServes = none → ∀ b, h.bankReady b = none)) ∧
       (let closed := ∀ k ∈ h.scheduler.banks, k.state = .closed
        let lanes := h.scheduler.burst = none ∧ h.scheduler.flight = none
        (h.channelCommandReady = true ↔
          (h.config.bringupItems.allClose = true ∧ lanes) ∨
            (h.config.bringupItems.modeLoad = true ∧ closed ∧ h.scheduler.flight = none) ∨
            ((h.rest.items.upkeep = true ∨ h.config.bringupItems.upkeep = true ∨
                (h.upkeep.items.upkeep = true ∧ h.config.change = none)) ∧ closed ∧ lanes) ∨
            (h.rest.items.retainEnter = true ∧ closed ∧ lanes) ∨
            ((h.rest.items.retainExit = true ∨ h.config.items.retainExit = true) ∧ h.dram.retention = true ∧
              h.scheduler.flight = none)) ∧
          (h.scheduler.allClosed = true ↔ closed) ∧
          ∀ c, h.scheduler.inFlight c = true ↔ ∃ t, h.scheduler.flight = some ⟨c, t⟩))

/-- The entries eligible in a bank are its QUEUED entries and its ACTIVE entry without an aborting mark, in the order of the
age list, and one is a hit when the bank is OPENING or OPEN at its row (R38). The candidate of a bank is chosen among them under
the committed BYPASS_LIMIT (R39): the one ACTIVE; else the head if it is a hit; else the
oldest hit, unless an entry older than that hit has been passed BYPASS_LIMIT times; else the head. The grant of a first burst
raises by one, up to 15, the passed counts of the older QUEUED entries of its bank that are not hits, and changes nothing
else in the table (R40). -/
def Obligations.CandidateAndPassedCountsFollowR39AndR40 : Prop :=
  (∀ (k : Bank) (limit : Nat) (es : List Entry),
    (∀ older e newer, es = older ++ e :: newer → e.activeUnmarked = true → (∀ x ∈ older, x.activeUnmarked = false) →
      candidateAmong k limit es = some e) ∧
      ((∀ x ∈ es, x.activeUnmarked = false) →
        (es = [] → candidateAmong k limit es = none) ∧
          (∀ head rest, es = head :: rest → (∀ x ∈ es, k.hit x = false) → candidateAmong k limit es = some head) ∧
          ∀ head rest older e newer, es = head :: rest → es = older ++ e :: newer → k.hit e = true →
            (∀ x ∈ older, k.hit x = false) →
            candidateAmong k limit es = some (if ∃ x ∈ older, x.passed = limit then head else e)) ∧
      ∀ older e newer, es = older ++ e :: newer → (∀ x ∈ older, x.index ≠ e.index) →
        raisePassed k e es = older.map (fun x =>
          if x.bank = e.bank ∧ x.phase = .queued ∧ k.hit x = false then { x with passed := min (x.passed + 1) 15 }
          else x) ++ e :: newer) ∧
  (∀ (k : Bank) (e : Entry),
    (k.hit e = true ↔ (k.state = .opening ∨ k.state = .opened) ∧ k.row = some e.row) ∧
      (e.activeUnmarked = true ↔ e.phase = .active ∧ e.aborting = none)) ∧
  ∀ (h : Hub) (b : Nat),
    h.eligible b = h.table.filter (fun e => decide (e.bank = b ∧
        (e.phase = .queued ∨ (e.phase = .active ∧ e.aborting = none)))) ∧
      (h.scheduler.banks[b]? = none → h.candidate b = none) ∧
      ∀ k, h.scheduler.banks[b]? = some k →
        h.candidate b = candidateAmong k h.config.committed.bypassLimit (h.eligible b)

/-- The ready command of a bank (R32, R33, R41, R51, R52): none while a channel-wide command is in flight; for a CLOSED bank
the ROW_OPEN for its candidate, over a SERVING channel with opens not withheld; for an OPEN bank the ROW_CLOSE, when its marks
have passed, no burst is in flight to it, and its candidate is a miss, or CLOSE_AFTER finds no hit left (both over a SERVING
channel, log entry 6), or it is flagged for close-all and has no eligible entry ACTIVE. -/
def Obligations.BankCommandsAreReadyAsR32AndR33Say : Prop :=
  ∀ (h : Hub) (b : Nat) (k : Bank), h.scheduler.banks[b]? = some k →
    (let passed (mark : Option Nat) : Prop := ∀ t, mark = some t → t ≤ h.now
     let es := h.eligible b
     (h.scheduler.flight ≠ none → h.bankReady b = none) ∧
       (h.scheduler.flight = none → k.state = .closed → h.bankReady b ≠ some .close ∧
         ∀ e, h.bankReady b = some (.openFor e) ↔
           h.channel = .serving ∧ h.upkeep.items.opensWithheld = false ∧ h.config.items.opensWithheld = false ∧
             h.candidate b = some e) ∧
       (h.scheduler.flight = none → k.state ≠ .closed → (∀ e, h.bankReady b ≠ some (.openFor e)) ∧
         (h.bankReady b = some .close ↔
           k.state = .opened ∧ passed k.openMark ∧ passed k.writeMark ∧
             (∀ x, h.scheduler.burst = some x → x.bank ≠ b) ∧
             ((h.channel = .serving ∧ ((∃ e, h.candidate b = some e ∧ k.hit e = false) ∨
                 (h.config.committed.rowPolicy = .closeAfter ∧ ∀ e ∈ es, k.hit e = false))) ∨
               (k.closeRequested = true ∧ ∀ e ∈ es, e.activeUnmarked = false)))))

/-- ROW_OPEN and ROW_CLOSE (R32, R33, R36, R55), when the lane serves the bank: the bank is OPENING at the candidate's row
or CLOSING, with the times of R32 and R33; the lane is taken for one period; a ROW_OPEN counts a row miss. BANK_OPENED,
BANK_CLOSED and the two marks (R31, R32, R33, R50): the bank is OPEN or CLOSED from its time on; a bank that opens while a
close-all demand stands is flagged; the time of a mark is reached, and the write-recovery mark is passed. -/
def Obligations.RowCommandsAndBankEventsMoveTheBank : Prop :=
  (∀ (s : State) (b : BankNo) (k : Bank), Running s → s.hub.scheduler.banks[b.val]? = some k →
     (let now := max s.hub.now s.hub.scheduler.laneFreeAt
      let h : Hub := { s.hub with now := now }
      let c := s.hub.config.committed
      let issue (d : DramCommand) (x : Bank) (misses : Nat) : Hub :=
        { h with
          scheduler := { h.scheduler with
            banks := h.scheduler.banks.set b.val x
            lastServed := b.val
            laneFreeAt := now + 1
            misses := misses }
          dram := { h.dram with issued := h.dram.issued ++ [d] } }
      (∀ e, h.laneServes = some (b.val, .openFor e) → exec (.rowOpen b) s = after s
        (issue (.rowOpen b.val e.row)
          { k with
            state := .opening
            row := some e.row
            openedFor := some e.index
            openMark := some (now + c.tHoldMin)
            doneAt := some (now + c.tOpen) }
          (rise32 h.scheduler.misses))) ∧
        (h.laneServes = some (b.val, .close) → exec (.rowClose b) s = after s
          (issue (.rowClose b.val)
            { k with
              state := .closing
              row := none
              openedFor := none
              openMark := none
              closeRequested := false
              doneAt := some (now + c.tClose) }
            h.scheduler.misses)))) ∧
  (∀ (s : State) (b : BankNo) (k : Bank) (t : Nat), Running s → s.hub.scheduler.banks[b.val]? = some k →
     (let h : Hub := { s.hub with now := max s.hub.now t }
      let bank (x : Bank) : Hub :=
        { h with scheduler := { h.scheduler with banks := h.scheduler.banks.set b.val x } }
      (k.state = .opening → k.doneAt = some t → exec (.bankOpened b) s = after s
        (bank { k with
          state := .opened
          doneAt := none
          closeRequested := k.closeRequested || s.hub.upkeep.items.closeAll || s.hub.rest.items.closeAll ||
            s.hub.config.bringupItems.closeAll })) ∧
        (k.state = .closing → k.doneAt = some t → exec (.bankClosed b) s = after s
          (bank { k with
            state := .closed
            doneAt := none })) ∧
        (k.openMark = some t → exec (.openMarkPassed b) s = after s h) ∧
        (k.writeMark = some t → exec (.writeRecoveryMarkPassed b) s = after s (bank { k with writeMark := none }))))

/-! ### The data lane -/

/-- The grant of the data lane (R46, R52): none while a burst or an UPKEEP is in flight or outside SERVING; the ACTIVE entry
alone while there is one, if its bank is OPEN at its row and words are left; otherwise the oldest QUEUED entry that is the
candidate of its OPEN bank, a hit there, with starts not withheld and the close requested flag clear. Starts are withheld while
the upkeep unit or the configuration unit presents that restraint (R51). -/
def Obligations.DataLaneIsGrantedAsR46Says : Prop :=
  (∀ h : Hub, OneActiveLaw h →
    (let fits (e : Entry) : Prop := ∃ k, h.scheduler.banks[e.bank]? = some k ∧ k.state = .opened ∧ k.row = some e.row
     let starts (e : Entry) : Prop := e.phase = .queued ∧ h.candidate e.bank = some e ∧
       h.startsWithheld = false ∧
       ∃ k, h.scheduler.banks[e.bank]? = some k ∧ k.state = .opened ∧ k.row = some e.row ∧ k.closeRequested = false
     (h.scheduler.burst ≠ none ∨ h.scheduler.inFlight .upkeep = true ∨ h.channel ≠ .serving → h.grant = none) ∧
       (h.scheduler.burst = none → h.scheduler.inFlight .upkeep = false → h.channel = .serving →
         (∀ e ∈ h.table, e.activeUnmarked = true →
           (e.wordsDone < e.words → fits e → h.grant = some e) ∧
             (¬ (e.wordsDone < e.words ∧ fits e) → h.grant = none)) ∧
           ((∀ e ∈ h.table, e.activeUnmarked = false) →
             (∀ older e newer, h.table = older ++ e :: newer → starts e → (∀ x ∈ older, ¬ starts x) →
               h.grant = some e) ∧
               ((∀ e ∈ h.table, ¬ starts e) → h.grant = none))))) ∧
  ∀ h : Hub, h.startsWithheld = true ↔ h.upkeep.items.startsWithheld = true ∨ h.config.items.startsWithheld = true

/-- COL_READ and COL_WRITE (R34, R47, R48, R55): with the lane granted to an entry of the command's kind, its next burst is
in flight for its time, with the words of a WRITE taken from the buffer, and the entry is ACTIVE; at its first burst the
passed counts rise (R40), and a row hit is counted unless the row was opened for it. That a burst
which would reach beyond the memory stops the machine is DEDUCED (log entry 18): R29 says only that no such address is. -/
def Obligations.ColumnCommandsStartTheNextBurst : Prop :=
  ∀ (s : State) (e : Entry), Running s → s.hub.grant = some e →
    (let h := s.hub
     let c := h.config.committed
     let start := e.addr % 256 / 8 + e.wordsDone
     let last := min (e.addr % 256 / 8 + e.words) ((start / 8 + 1) * 8)
     let words := last - start
     let addr := e.addr + e.wordsDone * 8
     let column := addr / (256 * c.banks) % (c.page / 256) * 32 + addr % 256 / 8
     let bank := (h.scheduler.banks[e.bank]?).getD Bank.closedRecord
     let table := if e.wordsDone = 0 then raisePassed bank e h.table else h.table
     let g (d : DramCommand) (x : Burst) : Hub :=
       { h with
         table := table.map (fun (y : Entry) => if y.index = e.index then { y with phase := .active } else y)
         scheduler := { h.scheduler with
           burst := some x
           hits := if e.wordsDone = 0 ∧ bank.openedFor ≠ some e.index then rise32 h.scheduler.hits
             else h.scheduler.hits }
         dram := { h.dram with issued := h.dram.issued ++ [d] } }
     (addr + words * 8 ≤ c.banks * 2 ^ c.rowBits * c.page →
       (e.kind = .read → exec (.colRead e.index) s = after s
         (g (.colRead e.bank e.row column words)
           ⟨e.index, .read, e.bank, addr, words, h.now + c.readLatency + words, []⟩)) ∧
         (e.kind = .write → exec (.colWrite e.index) s = after s
           (g (.colWrite e.bank e.row column words)
             ⟨e.index, .write, e.bank, addr, words, h.now + words, (e.buffer.drop e.wordsDone).take words⟩))) ∧
       (c.banks * 2 ^ c.rowBits * c.page < addr + words * 8 →
         (e.kind = .read → exec (.colRead e.index) s = .fault .addressOutsideMemory) ∧
           (e.kind = .write → exec (.colWrite e.index) s = .fault .addressOutsideMemory)))

/-- R47: an entry's next burst begins at its first word not yet done, has 1 to 8 words, stays within one group of 8 words of
the segment and within the transaction, and stops short of the transaction's last word only at a group's end. The bursts left
are the groups left: 1 to 4 at first, and one fewer after each burst. -/
def Obligations.BurstsAreCutAtEightWordBoundaries : Prop :=
  ∀ e : Entry, e.wordsDone < e.words → e.addr % 256 / 8 + e.words ≤ 32 →
    (let first := e.addr % 256 / 8 + e.wordsDone
     let left (word : Nat) : Nat := (e.addr % 256 / 8 + e.words - 1) / 8 - word / 8 + 1
     1 ≤ e.burstWords ∧ e.burstWords ≤ 8 ∧
       first / 8 = (first + e.burstWords - 1) / 8 ∧
       e.wordsDone + e.burstWords ≤ e.words ∧
       (e.wordsDone + e.burstWords < e.words →
         (first + e.burstWords) % 8 = 0 ∧ left (first + e.burstWords) + 1 = left first) ∧
       (e.wordsDone + e.burstWords = e.words → left first = 1) ∧
       (e.wordsDone = 0 → 1 ≤ left first ∧ left first ≤ 4) ∧
       (e.addr % 8 = 0 → e.burstAddr % 256 / 8 = first))

/-- The address map (R29): bank, row and column name every word of the memory exactly once, and are cut from the physical
address as R29 says; the memory size is BANKS × 2^ROW_BITS × PAGE. -/
def Obligations.AddressMapIsOneToOne : Prop :=
  (∀ (c : Params) (a b : Nat), 0 < c.banks → (∃ n, 0 < n ∧ c.page = 256 * n) →
    a < c.banks * 2 ^ c.rowBits * c.page → b < c.banks * 2 ^ c.rowBits * c.page →
    c.bankOf a = c.bankOf b → c.rowOf a = c.rowOf b → c.columnOf a = c.columnOf b → a / 8 = b / 8) ∧
  ∀ (c : Params) (a : Nat), c.bankOf a = a / 256 % c.banks ∧
    c.rowOf a = a / (256 * c.banks * (c.page / 256)) % 2 ^ c.rowBits ∧
    c.columnOf a = a / (256 * c.banks) % (c.page / 256) * 32 + a % 256 / 8 ∧
    c.memorySize = c.banks * 2 ^ c.rowBits * c.page

/-- COL_READ_COMPLETE (R15, R16, R21, R48, R67, R147): the words of the burst have been read, checked and counted, the lane
is free, and the entry is freed if it carries the aborting mark, DONE if its last word is read, QUEUED under the stop at
completion, and ACTIVE otherwise. An aborted entry is answered with its words done, in the place of a pending reply of its tag
if there is one (R22, R23); under a HUB_RESET its tag leaves the tag set (R24); of a torn-down port nothing is owed (R25). The
words of a burst are read one after another, word n at its address with its own flips. What a DONE or freed entry releases
(R13, R19): the entries that name it as predecessor have their ORDER worked out again, it leaves the watch sets, and the fences
this completes are answered OK in order of the list; nothing else changes. -/
def Obligations.ReadBurstCompletes : Prop :=
  (∀ (s : State) (flips : List (BitVec 72)) (x : Burst) (e : Entry), Running s →
     s.hub.scheduler.burst = some x → x.kind = .read → s.hub.entry x.entry = some e →
     (let r := ReadProgress.words ⟨s.hub.dram, s.hub.check, e⟩ x.addr flips x.words
      let f := { r.entry with wordsDone := r.entry.wordsDone + x.words }
      let put (y : Entry) : Hub :=
        { s.hub with
          now := max s.hub.now x.doneAt
          dram := r.dram
          check := r.check
          table := s.hub.table.map (fun z => if z.index = e.index then y else z)
          scheduler := { s.hub.scheduler with burst := none } }
      exec (.colReadComplete flips) s = after s
        (match e.aborting with
         | some .answered => ((put f).onMessages e.port (fun m =>
             { m with replies := if m.replies.any (fun (y : PendingReply) => y.tag == e.tag) then
                 m.replies.map (fun (y : PendingReply) => if y.tag = e.tag then .aborted e.tag f.wordsDone else y)
               else m.replies ++ [.aborted e.tag f.wordsDone] })).freeEntries [e.index]
         | some .silent => ((put f).onMessages e.port (fun m =>
             { m with tags := m.tags.filter (fun t => t != e.tag) })).freeEntries [e.index]
         | some .torn => (put f).freeEntries [e.index]
         | none =>
           if f.words ≤ f.wordsDone then
             ((put { f with phase := .done }).defer e.port (.entry e.tag e.index)).release [e.index]
           else if s.hub.upkeep.items.stop = true then put { f with phase := .queued }
           else put f))) ∧
  (∀ (r : ReadProgress) (a : Nat) (flips : List (BitVec 72)), r.words a flips 0 = r ∧
     ∀ n, r.words a flips (n + 1) = (r.words a flips n).word (a + 8 * n) ((flips[n]?).getD 0)) ∧
  ∀ (h : Hub) (gone : List Index),
    (let g := h.release gone
     g.table.length = h.table.length ∧
       (∀ ahead e behind, h.table = ahead ++ e :: behind → g.table[ahead.length]? = some (reordered gone ahead e)) ∧
       (∀ p, (let m := g.layer p
         let l := h.layer p
         let left (f : Fence) : List Index := f.watch.filter (fun i => decide (i ∉ gone))
         m.fences = l.fences.map (fun f => { f with watch := left f }) ∧
           m.replies = l.replies ++
             (l.fences.filter (fun f => decide (f.watch ≠ [] ∧ left f = []))).map (fun f => PendingReply.fence f.tag) ∧
           { m with fences := l.fences, replies := l.replies } = l)) ∧
       { g with table := h.table, messages := h.messages } = h)

/-- One word of a read burst (R147, R149): the check says clean, corrected or damaged; the word it gives goes into the
buffer; a correction and a damage are counted and raise the entry's status and its flagged words, and a damage leaves its
record. Words that have not flipped leave the memory as it is. The bits that have flipped in a word since the last read are an
operand of the command (log entry 4); they turn the stored word and its code, no other byte or code, and stay so until the word is written
again (R150). -/
def Obligations.ReadWordIsCheckedAndCounted : Prop :=
  (∀ (r : ReadProgress) (a : Nat) (flips : BitVec 72),
    (let d := r.dram.flip a flips
     let w := CheckCode.check (d.wordAt a) (d.codeAt a)
     let t := r.word a flips
     t.dram = d ∧ (flips = 0 → d = r.dram) ∧ t.entry.buffer = r.entry.buffer ++ [w.2] ∧
       (w.1 = .clean → t.check = r.check ∧ t.entry.status = r.entry.status ∧ t.entry.flagged = r.entry.flagged) ∧
       (w.1 = .corrected → t.check = { r.check with corrected := rise32 r.check.corrected } ∧
         t.entry.status = (if r.entry.status = .damaged then .damaged else .corrected) ∧
         t.entry.flagged = r.entry.flagged + 1) ∧
       (w.1 = .damaged →
         t.check = { r.check with damaged := rise32 r.check.damaged, damage := some ⟨a, r.entry.port⟩ } ∧
           t.entry.status = .damaged ∧ t.entry.flagged = r.entry.flagged + 1))) ∧
  ∀ (d : Dram) (a : Nat) (flips : BitVec 72), a % 8 = 0 →
    (let t := d.flip a flips
     t.wordAt a = d.wordAt a ^^^ flips.setWidth 64 ∧ t.codeAt a = d.codeAt a ^^^ flips.extractLsb' 64 8 ∧
       (∀ b, b < a ∨ a + 8 ≤ b → t.byteAt b = d.byteAt b ∧ t.codeAt b = d.codeAt b) ∧
       t.epoch = d.epoch ∧ t.retention = d.retention ∧ t.readLatency = d.readLatency ∧ t.issued = d.issued)

/-- COL_WRITE_COMPLETE (R33, R34, R146): the words and their check codes are in memory, the bank's write-recovery mark is
set, and the entry goes on as at a read burst's completion. -/
def Obligations.WriteBurstCompletes : Prop :=
  ∀ (s : State) (x : Burst) (e : Entry) (k : Bank), Running s →
    s.hub.scheduler.burst = some x → x.kind = .write → s.hub.entry x.entry = some e →
    s.hub.scheduler.banks[x.bank]? = some k →
    (let now := max s.hub.now x.doneAt
     let f := { e with wordsDone := e.wordsDone + x.words }
     let put (y : Entry) : Hub :=
       { s.hub with
         now := now
         dram := s.hub.dram.storeWords x.addr x.data
         table := s.hub.table.map (fun z => if z.index = e.index then y else z)
         scheduler := { s.hub.scheduler with
           burst := none
           banks := s.hub.scheduler.banks.set x.bank
             { k with writeMark := some (now + s.hub.config.committed.tWriteRecover) } } }
     exec .colWriteComplete s = after s
       (match e.aborting with
        | some .answered => ((put f).onMessages e.port (fun m =>
            { m with replies := if m.replies.any (fun (y : PendingReply) => y.tag == e.tag) then
                m.replies.map (fun (y : PendingReply) => if y.tag = e.tag then .aborted e.tag f.wordsDone else y)
              else m.replies ++ [.aborted e.tag f.wordsDone] })).freeEntries [e.index]
        | some .silent => ((put f).onMessages e.port (fun m =>
            { m with tags := m.tags.filter (fun t => t != e.tag) })).freeEntries [e.index]
        | some .torn => (put f).freeEntries [e.index]
        | none =>
          if f.words ≤ f.wordsDone then
            ((put { f with phase := .done }).defer e.port (.entry e.tag e.index)).release [e.index]
          else if s.hub.upkeep.items.stop = true then put { f with phase := .queued }
          else put f))

/-- Words stored at an aligned address read back with their check codes, and every other byte and code of the memory is as
it was (R34, R146, R153). The bytes of a word stand in order of address, the least significant first. -/
def Obligations.StoredWordsReadBackAlone : Prop :=
  (∀ (d : Dram) (a : Nat) (ws : List Word), a % 8 = 0 →
    (let t := d.storeWords a ws
     (∀ n w, ws[n]? = some w → t.wordAt (a + 8 * n) = w ∧ t.codeAt (a + 8 * n) = CheckCode.code w) ∧
       (∀ b, b < a ∨ a + 8 * ws.length ≤ b → t.byteAt b = d.byteAt b ∧ t.codeAt b = d.codeAt b) ∧
       (d.wf = true → t.wf = true) ∧
       t.retention = d.retention ∧ t.readLatency = d.readLatency ∧ t.issued = d.issued)) ∧
  (∀ (d : Dram) (a n : Nat), n < 8 → d.byteAt (a + n) = (d.wordAt a).extractLsb' (8 * n) 8) ∧
  ∀ (w : Word) (n : Nat), n < 8 → (wordBytes w)[n]? = some (w.extractLsb' (8 * n) 8)

/-- The check of a word read (R147): as stored it is clean; with one bit wrong among the 72 it is corrected to the word
stored; with two bits wrong it is damaged, and the data bits are as read. -/
def Obligations.CheckCorrectsOneBitAndFindsTwo : Prop :=
  ∀ (w : Word) (i j : Fin 72),
    (let flip (n : Fin 72) : Word := if n.val < 64 then BitVec.twoPow 64 n.val else 0
     let flipCode (n : Fin 72) : Byte := if n.val < 64 then 0 else BitVec.twoPow 8 (n.val - 64)
     let c := CheckCode.code w
     CheckCode.check w c = (.clean, w) ∧
       CheckCode.check (w ^^^ flip i) (c ^^^ flipCode i) = (.corrected, w) ∧
       (i ≠ j → CheckCode.check (w ^^^ flip i ^^^ flip j) (c ^^^ flipCode i ^^^ flipCode j) =
         (.damaged, w ^^^ flip i ^^^ flip j)))

/-! ### Channel-wide commands and upkeep -/

/-- The channel-wide commands (R35, R36, R107, R109, R125, R127, R128): each is issued on the row command lane when it is
demanded and its conditions hold, and takes its time; RETAIN_ENTER takes none, puts the memory in retention and stops the
interval timer, and every UP port is told that the channel is RESTING. The completions of ALL_CLOSE, MODE_LOAD and RETAIN_EXIT
(R35, R110, R128): the bank table takes BANKS CLOSED records and phase MODE begins; the devices hold READ_LATENCY and phase
BURST begins; the memory is usable and the leaving step is exit UPKEEP. -/
def Obligations.ChannelWideCommandsAreIssuedAndComplete : Prop :=
  (∀ s : State, Running s →
     (let u := s.hub.scheduler
      let now := max s.hub.now u.laneFreeAt
      let c := s.hub.config.committed
      let closed := ∀ k ∈ u.banks, k.state = .closed
      let issue (d : DramCommand) (flight : Option Flight) : Hub :=
        { s.hub with
          now := now
          scheduler := { u with laneFreeAt := now + 1, flight := flight }
          dram := { s.hub.dram with issued := s.hub.dram.issued ++ [d] } }
      u.flight = none →
        (s.hub.config.bringupItems.allClose = true → u.burst = none → exec .allClose s = after s
          (issue .allClose (some ⟨.allClose, now + c.tClose⟩))) ∧
          (s.hub.config.bringupItems.modeLoad = true → closed → exec .modeLoad s = after s
            (issue (.modeLoad c.readLatency) (some ⟨.modeLoad, now + 16⟩))) ∧
          (s.hub.rest.items.upkeep = true ∨ s.hub.config.bringupItems.upkeep = true ∨
              (s.hub.upkeep.items.upkeep = true ∧ s.hub.config.change = none) →
            closed → u.burst = none → exec .upkeep s = after s
              (issue .upkeep (some ⟨.upkeep, now + c.tUpkeep⟩))) ∧
          (s.hub.rest.items.retainEnter = true → closed → u.burst = none → exec .retainEnter s = after s
            (let h := issue .retainEnter none
             { h with
               channel := .resting
               dram := { h.dram with retention := true }
               upkeep := { h.upkeep with timer := none, debt := 0, level := .clear } }.notifyUp .channelState 4)) ∧
          (s.hub.rest.items.retainExit = true ∨ s.hub.config.items.retainExit = true → s.hub.dram.retention = true →
            exec .retainExit s = after s
              (issue .retainExit (some ⟨.retainExit, now + c.retainExit⟩))))) ∧
  (∀ (s : State) (t : Nat), Running s →
     (let c := s.hub.config.committed
      let h : Hub :=
        { s.hub with now := max s.hub.now t, scheduler := { s.hub.scheduler with flight := none } }
      (s.hub.scheduler.flight = some ⟨.allClose, t⟩ → exec .allCloseComplete s = after s
        { h with
          scheduler := { h.scheduler with
            banks := List.replicate c.banks ⟨.closed, none, none, none, none, false, none⟩ }
          config := { h.config with bringup := h.config.bringup.map (fun r => { r with phase := .mode }) } }) ∧
        (s.hub.scheduler.flight = some ⟨.modeLoad, t⟩ → exec .modeLoadComplete s = after s
          { h with
            dram := { h.dram with readLatency := c.readLatency }
            config := { h.config with
              bringup := h.config.bringup.map (fun r =>
                { r with phase := .burst, upkeepsLeft := c.bringupUpkeeps }) } }) ∧
        (s.hub.scheduler.flight = some ⟨.retainExit, t⟩ → exec .retainExitComplete s = after s
          { h with
            dram := { h.dram with retention := false }
            rest := { h.rest with leaving := h.rest.leaving.map (fun _ => .exitUpkeep) } })))

/-- UPKEEP_COMPLETE (R60, R61, R110, R112, R129): the debt falls by one, the count rises and the level is worked out again.
The last UPKEEP of BURST ends bring-up: the channel is SERVING, the interval timer is loaded, UP ports are told and the
commit is answered unless its port has been torn down. The exit UPKEEP ends LEAVING unless a pending change stands. -/
def Obligations.UpkeepCompletionPaysTheDebt : Prop :=
  ∀ (s : State) (t : Nat), Running s → s.hub.scheduler.flight = some ⟨.upkeep, t⟩ →
    (let u := s.hub.upkeep
     let now := max s.hub.now t
     let h : Hub :=
       { s.hub with
         now := now
         scheduler := { s.hub.scheduler with flight := none }
         upkeep := { u with
           debt := u.debt - 1
           completed := rise32 u.completed
           level := if u.level = .critical ∧ 8 ≤ u.debt - 1 then .critical else urgencyOf (u.debt - 1) } }
     (s.hub.config.bringup = none →
       ¬ (s.hub.channel = .leaving ∧ s.hub.rest.leaving = some .exitUpkeep ∧ s.hub.config.change = none) →
       exec .upkeepComplete s = after s h) ∧
       (s.hub.config.bringup = none → s.hub.channel = .leaving → s.hub.rest.leaving = some .exitUpkeep →
         s.hub.config.change = none →
         exec .upkeepComplete s = after s (h.becomeServing.notifyUp .channelState 2)) ∧
       ∀ r, s.hub.config.bringup = some r →
         (1 < r.upkeepsLeft → exec .upkeepComplete s = after s
           { h with config := { h.config with bringup := some { r with upkeepsLeft := r.upkeepsLeft - 1 } } }) ∧
           (r.upkeepsLeft ≤ 1 → exec .upkeepComplete s = after s
             (let g := { h with
                upkeep := { h.upkeep with
                  debt := 0
                  level := .clear
                  timer := some (now + s.hub.config.committed.upkeepInterval) }
                config := { h.config with bringup := none } }.becomeServing.notifyUp .channelState 2
              if r.torn = true then g else g.defer r.port (.commit r.tag (if r.geometry = true then 1 else 0)))))

/-- R59 and R61: at each expiry of the interval timer, which is loaded again (R58), the debt rises by one if it is 11 or
less, and the level is worked out again; at 12 it stays, the overrun count rises, and the holder of the control role is given
an UPKEEP_OVERRUN record with the count (R70). The debt always lies between 0 and 12, with the level of R61: CLEAR at 0, LAX to
3, DUE to 7, URGENT to 10 and CRITICAL above. -/
def Obligations.IntervalExpiryRaisesTheDebtOrCountsAnOverrun : Prop :=
  (∀ (s : State) (t : Nat), Running s → s.hub.upkeep.timer = some t →
     (let u := s.hub.upkeep
      let h (v : UpkeepUnit) : Hub :=
        { s.hub with
          now := max s.hub.now t
          upkeep := { v with timer := some (t + s.hub.config.committed.upkeepInterval) } }
      (u.debt ≤ 11 → exec .intervalTimerExpiry s = after s
        (h { u with
          debt := u.debt + 1
          level := if u.level = .critical ∧ 8 ≤ u.debt + 1 then .critical else urgencyOf (u.debt + 1) })) ∧
        (12 ≤ u.debt →
          (let g := h { u with overruns := min (u.overruns + 1) 0xFFFFFFFF }
           exec .intervalTimerExpiry s = after s (match s.hub.config.holder with
             | some p => g.notify p .upkeepOverrun (min (u.overruns + 1) 0xFFFFFFFF) none
             | none => g))))) ∧
  KeptByEveryStep DebtLaw ∧
  ∀ debt : Nat, urgencyOf debt = if debt < 1 then .clear else if debt < 4 then .lax else if debt < 8 then .due
    else if debt < 11 then .urgent else .critical

/-! ### Lease timers -/

/-- LEASE_EXPIRY and WAIT_DEADLINE (R74, R86, R90, R93): at the hub timer's value a GRANTED lease lapses, is counted and
told to its owner, and leaves by the steps of R90; a request still ungranted is answered TIMEOUT and leaves the wait list,
or its slot with the number of entries it still drained as detail, and the wait list is scanned. The hub timer counts
milliseconds (R74). A lease that leaves frees its slot, which keeps its generation, the held entries are re-checked (O60), and
the wait list is scanned (R90). The scan (R89) takes the waiting requests in order: one stays on the list if no slot is free, a
lease of another port conflicts with it (R76), or a request of another port that has stayed ahead of it overlaps it; any other
occupies the free slot of the lowest id, whose generation rises by one (R75), with its base, length, mode, duration and
tag, the deadline it had, and the drain set of R82 from the table as it stands, and is granted at once, with a deferred reply,
where that is empty (R84, O23). -/
def Obligations.LeasesLapseAndRequestsTimeOut : Prop :=
  (∀ (s : State), Running s → SlotsLaw s.hub →
    (let at_ (ms : Nat) : Hub := { s.hub with now := max s.hub.now (ms * 400000) }
     (∀ x ∈ s.hub.leases.slots, ∀ l expiry, x.lease = some l → l.phase = .granted expiry →
       exec (.leaseExpiry x.id) s = after s
         (let h := (at_ expiry).notify l.owner .leaseLapsed 0 (some ⟨x.id, x.generation⟩)
          ({ h with leases := { h.leases with lapses := rise32 h.leases.lapses } }.freeSlots
            (fun y => y.id == x.id)).recheck.scanWaits)) ∧
       (∀ earlier w later, s.hub.leases.waits = earlier ++ w :: later →
         (∀ v ∈ earlier ++ later, ¬ (v.port = w.port ∧ v.tag = w.tag)) →
         exec (.waitDeadline w.port w.tag) s = after s
           (({ at_ w.deadline with leases := { s.hub.leases with waits := earlier ++ later } }.defer w.port
             (.leaseEnd w.tag .timeout 0)).scanWaits)) ∧
       ∀ x ∈ s.hub.leases.slots, ∀ l duration deadline drain tag, x.lease = some l →
         l.phase = .granting duration deadline drain tag →
         (∀ w ∈ s.hub.leases.waits, ¬ (w.port = l.owner ∧ w.tag = tag)) →
         (∀ y ∈ s.hub.leases.slots, ∀ k d b c, y.lease = some k → k.owner = l.owner →
           k.phase = .granting d b c tag → y.id = x.id) →
         exec (.waitDeadline l.owner tag) s = after s
           (((at_ deadline).leaseLeaves x.id).defer l.owner (.leaseEnd tag .timeout drain.length)))) ∧
  (∀ (h : Hub) (id : LeaseId) (c : LeaseSlot → Bool),
     h.hubTime = h.now / 400000 ∧ h.leaseLeaves id = (h.freeSlots (fun y => y.id == id)).recheck.scanWaits ∧
       h.freeSlots c = { h with leases := { h.leases with
         slots := h.leases.slots.map (fun (x : LeaseSlot) => if c x = true then { x with lease := none } else x) } } ∧
       h.scanWaits = h.scanFrom [] h.leases.waits) ∧
  (∀ (l : Lease) (p : Port) (mode : LeaseMode) (base length : Nat), l.conflictsWithRequest p mode base length = true ↔
     l.owner ≠ p ∧ rangesOverlap l.base l.length base length = true ∧ (l.mode = .sole ∨ mode = .sole)) ∧
  (∀ (h : Hub) (kept : List Waiting), h.scanFrom kept [] = { h with leases := { h.leases with waits := kept } }) ∧
  ∀ (h : Hub) (kept : List Waiting) (w : Waiting) (ws : List Waiting),
    (let stays := (∀ x ∈ h.leases.slots, x.lease ≠ none) ∨
       someLease h (fun l => l.conflictsWithRequest w.port w.mode w.base w.length) = true ∨
       ∃ v ∈ kept, v.port ≠ w.port ∧ rangesOverlap v.base v.length w.base w.length = true
     let drain := (h.table.filter (fun e => rangesOverlap w.base w.length e.addr (e.words * 8) &&
       ((e.port != w.port && (w.mode == .sole || e.kind == .write)) ||
         (w.mode == .guarded && e.port == w.port && e.kind == .write)))).map Entry.index
     (stays → h.scanFrom kept (w :: ws) = h.scanFrom (kept ++ [w]) ws) ∧
       (SlotsLaw h → ¬ stays →
         ∀ x ∈ h.leases.slots, x.lease = none → (∀ y ∈ h.leases.slots, y.lease = none → x.id ≤ y.id) →
           h.scanFrom kept (w :: ws) =
             ({ h with leases := { h.leases with slots := h.leases.slots.map (fun (y : LeaseSlot) =>
                 if y.id = x.id then
                   ⟨x.id, x.generation + 1, some ⟨w.port, w.base, w.length, w.mode,
                     .granting w.duration w.deadline drain w.tag⟩⟩
                 else y) } }.grantIfDrained x.id).scanFrom kept ws))

/-! ### What every event ends with -/

/-- The end of every event (R102, R104, R105, R108, R112): outside SERVING and ENTERING the channel stays; SERVING becomes
ENTERING when every UP port has voted, the table is empty and no change is pending; ENTERING returns to SERVING, with the
deferred WAKEs answered, when that fails, once no UPKEEP is in flight and no change is pending. Memory, windows, leases, the
check-code unit, the parameter sets, the role, the votes, the links but for their room timers and the message layers but for
those WAKEs are untouched, and so are the entries, the leaving step and the deferred WAKEs unless ENTERING ends so. The units present what
their rules ask for (R63, R106, R109, R110, R124, R125, R127, R128); the close requested flags of OPENING and OPEN banks are
set where a close-all demand is newly presented, and all are cleared where the last one is withdrawn (R50); the room timer
runs, loaded with 32 µs when it starts, exactly under its conditions (R175). That all this happens once, at the end of every
event, is DEDUCED (log entry 23). Every change to SERVING (R11, R12, R104, R110, R129): the CHANNEL holds clear, entries with
no other hold become QUEUED, the deferred WAKEs are answered, and the leaving step and the abandoning mark are absent. -/
def Obligations.EveryEventEndsWithTheEntryCondition : Prop :=
  (∀ h : Hub,
     (let g := h.settle
      let wanted := (∀ p, (h.link p).state = .up → h.rest.votes.get p = true) ∧ h.table = [] ∧ h.config.change = none
      let stuck := h.config.change ≠ none ∨ h.scheduler.inFlight .upkeep = true
      (h.channel ≠ .serving → h.channel ≠ .entering → g.channel = h.channel) ∧
        (h.channel = .serving → g.channel = if wanted then .entering else .serving) ∧
        (h.channel = .entering → h.rest.abandoning = false → wanted → g.channel = .entering) ∧
        (h.channel = .entering → (h.rest.abandoning = true ∨ ¬ wanted) → stuck →
          g.channel = .entering ∧ g.rest.abandoning = true) ∧
        (h.channel = .entering → (h.rest.abandoning = true ∨ ¬ wanted) → ¬ stuck →
          g.channel = (if wanted then .entering else .serving) ∧ g.rest.abandoning = false ∧ g.rest.wakes = [] ∧
            ∀ p, (g.layer p).replies = (h.layer p).replies ++
              (h.rest.wakes.filter (fun w => w.1 == p)).map (fun w => PendingReply.wake w.2)) ∧
        ItemsLaw g ∧
        g.dram = h.dram ∧ g.windows = h.windows ∧ g.leases = h.leases ∧ g.check = h.check ∧ g.now = h.now ∧
        { g.config with items := Items.none, bringupItems := Items.none } =
          { h.config with items := Items.none, bringupItems := Items.none } ∧
        (∀ p, { g.link p with roomTimer := none } = { h.link p with roomTimer := none }) ∧
        (∀ p, (g.layer p).tags = (h.layer p).tags) ∧ g.table.map Entry.index = h.table.map Entry.index)) ∧
  (∀ h : Hub,
     (let g := h.settle
      let wanted := (∀ p, (h.link p).state = .up → h.rest.votes.get p = true) ∧ h.table = [] ∧ h.config.change = none
      let ends := h.channel = .entering ∧ (h.rest.abandoning = true ∨ ¬ wanted) ∧ h.config.change = none ∧
        h.scheduler.inFlight .upkeep = false
      g.resetLow = h.resetLow ∧ g.rest.votes = h.rest.votes ∧
        (∀ p, { g.layer p with replies := (h.layer p).replies } = h.layer p) ∧
        (¬ ends → g.table = h.table ∧ g.messages = h.messages ∧
          { g.rest with items := h.rest.items, abandoning := h.rest.abandoning } = h.rest) ∧
        (h.channel ≠ .entering ∨ (h.rest.abandoning = false ∧ wanted) → g.rest.abandoning = h.rest.abandoning) ∧
        (ends → g.table = h.becomeServing.table ∧ g.messages = h.becomeServing.messages ∧
          { g.rest with items := h.rest.items } = h.becomeServing.rest))) ∧
  (∀ h : Hub,
     (let g := h.settle
      let newly := (g.upkeep.items.closeAll = true ∧ h.upkeep.items.closeAll = false) ∨
        (g.rest.items.closeAll = true ∧ h.rest.items.closeAll = false) ∨
        (g.config.bringupItems.closeAll = true ∧ h.config.bringupItems.closeAll = false)
      let stood := h.upkeep.items.closeAll = true ∨ h.rest.items.closeAll = true ∨
        h.config.bringupItems.closeAll = true
      let stands := g.upkeep.items.closeAll = true ∨ g.rest.items.closeAll = true ∨
        g.config.bringupItems.closeAll = true
      UpkeepTable g ∧ RestTable g ∧ ChangeTable g ∧ BringupTable g ∧
        g.scheduler.banks.length = h.scheduler.banks.length ∧
        (∀ (b : Nat) (k : Bank), h.scheduler.banks[b]? = some k →
          (newly → g.scheduler.banks[b]? = some { k with
              closeRequested := k.closeRequested || k.state == .opening || k.state == .opened }) ∧
            (stood → ¬ stands → g.scheduler.banks[b]? = some { k with closeRequested := false }) ∧
            (¬ newly → (stands ∨ ¬ stood) → g.scheduler.banks[b]? = some k)) ∧
        { g.scheduler with banks := h.scheduler.banks } = h.scheduler ∧
        { g.upkeep with items := h.upkeep.items } = h.upkeep ∧
        ∀ p, (let l := h.link p
          let runs := l.replay = [] ∧ l.outbound ≠ [] ∧ (l.farRoom = 0 ∨ l.fullWait = true)
          (g.link p).roomTimer = if runs then some (l.roomTimer.getD (h.now + 12800)) else none))) ∧
  ∀ h : Hub,
    (let g := h.becomeServing
     g.channel = .serving ∧ g.rest = { h.rest with abandoning := false, leaving := none, wakes := [] } ∧
       g.table = h.table.map (fun (e : Entry) => { e with
         holds := { e.holds with channel := false }
         phase := if e.phase = .held ∧ e.holds.order = none ∧ e.holds.fencesAhead = 0 ∧ e.holds.lease = false then
           .queued else e.phase }) ∧
       (∀ p, g.layer p = { h.layer p with replies := (h.layer p).replies ++
         (h.rest.wakes.filter (fun w => w.1 == p)).map (fun w => PendingReply.wake w.2) }) ∧
       { g with channel := h.channel, rest := h.rest, table := h.table, messages := h.messages } = h)

/-! ### Frames and bytes -/

/-- The frame of R153 and its check (R169) agree: the bytes of every frame whose payload has at most 272 bytes and whose room
is at most 4 are a good frame that says the same, and the symbols of such a frame on the line hand over its bytes (R181). The
line coding: at most 278 bytes between a start mark and an end mark are handed over; a start mark before the end mark cuts the
frame short and begins a new one; bytes without a start mark are one corrupt frame at the next start mark; a frame of more than
278 bytes is corrupt at its 279th, and nothing more comes of it before the next start mark; idle symbols are no frame. A frame
event comes with its last symbol, and leaves the receiving side between frames, in the new frame, or waiting. That an idle
symbol within a frame is passed over is the model's choice (log entry 25). The layout of R153: numbers least significant byte
first; type, sequence, payload length, payload and CRC, with each type's payload; the CRC's bytes go in that order too, which
is DEDUCED (log entry 9). The CRC-16 has the generator x^16 + x^12 + x^5 + 1, starts at 0xFFFF and takes each byte most
significant bit first. A frame is good if and only if its CRC, type, payload length, room and reason are as R153 and R169 say; any
other frame is corrupt, and so are a frame cut short, stray bytes and a frame that runs on. -/
def Obligations.FramesReadBackWhatTheyCarry : Prop :=
  (∀ f : FrameBody,
     (match f with
       | .message _ payload => payload.length ≤ 272
       | .ack _ room => room ≤ 4
       | .nak _ _ => True
       | .align => True
       | .ready room => room ≤ 4) →
     parseFrame f.bytes = some f ∧
       Receiver.between.hear (lineOf f.bytes) = some (.delimited f.bytes, .between)) ∧
  (∀ bytes : List Byte,
     (let data := bytes.map LineSymbol.data
      (bytes.length ≤ 278 →
        Receiver.between.hear (.startMark :: (data ++ [.endMark])) = some (.delimited bytes, .between) ∧
          (Receiver.within []).hear (data ++ [.endMark]) = some (.delimited bytes, .between) ∧
          Receiver.between.hear (.startMark :: (data ++ [.startMark])) = some (.cutShort, .within [])) ∧
        (bytes ≠ [] → Receiver.between.hear (data ++ [.startMark]) = some (.stray, .within [])) ∧
        (bytes.length = 279 → Receiver.between.hear (.startMark :: data) = some (.overlong, .waiting)))) ∧
  (∀ (r : Receiver) (line rest : List LineSymbol) (f : LineFrame) (t : Receiver),
     (r.hear (.idle :: line) = r.hear line ∧ (∀ n, r.hear (List.replicate n .idle) = none)) ∧
       ((∀ x ∈ line, x ≠ .startMark) → Receiver.waiting.hear line = none ∧
         Receiver.waiting.hear (line ++ .startMark :: rest) = (Receiver.within []).hear rest) ∧
       (r.hear line = some (f, t) →
         t = (match f with
           | .delimited _ => .between
           | .cutShort => .within []
           | .stray => .within []
           | .overlong => .waiting) ∧
         (rest ≠ [] → r.hear (line ++ rest) = none))) ∧
  ((∀ k n : Nat, (leBytes k n).length = k ∧ ∀ i < k, (leBytes k n)[i]? = some (BitVec.ofNat 8 (n / 256 ^ i))) ∧
     leNat [] = 0 ∧ ∀ (b : Byte) (bs : List Byte), leNat (b :: bs) = b.toNat + 256 * leNat bs) ∧
  ((∀ (r : BitVec 16) (b : Bool), ∀ i < 16, (crcBit r b).getLsbD i =
       ((decide (1 ≤ i) && r.getLsbD (i - 1)) ^^ ((r.getLsbD 15 ^^ b) && decide (i = 0 ∨ i = 5 ∨ i = 12)))) ∧
     ∀ bytes : List Byte, crc16 bytes =
       (bytes.flatMap (fun x => [7, 6, 5, 4, 3, 2, 1, 0].map x.getLsbD)).foldl crcBit 0xFFFF) ∧
  (∀ (type seq : Byte) (payload : List Byte),
     (let head := [type, seq] ++ leBytes 2 payload.length ++ payload
      frameBytes type seq payload = head ++ leBytes 2 (crc16 head).toNat)) ∧
  (∀ (n : Byte) (payload : List Byte) (room : Nat) (reason : NakReason),
     (FrameBody.message n payload).bytes = frameBytes 1 n payload ∧
       (FrameBody.ack n room).bytes = frameBytes 2 0 [n, BitVec.ofNat 8 room] ∧
       (FrameBody.nak n reason).bytes = frameBytes 3 0 [n, reason.code] ∧
       FrameBody.align.bytes = frameBytes 4 0 [] ∧ (FrameBody.ready room).bytes = frameBytes 5 0 [BitVec.ofNat 8 room] ∧
       NakReason.corrupt.code = 1 ∧ NakReason.order.code = 2 ∧ NakReason.full.code = 3) ∧
  (∀ (bytes : List Byte) (f : FrameBody), parseFrame bytes = some f ↔
     ∃ type seq payload, bytes = frameBytes type seq payload ∧
       (match f with
         | .message n m => type = 1 ∧ seq = n ∧ payload = m ∧ payload.length ≤ 272
         | .ack n room => type = 2 ∧ payload = [n, BitVec.ofNat 8 room] ∧ room ≤ 4
         | .nak e reason => type = 3 ∧ payload = [e, reason.code]
         | .align => type = 4 ∧ payload = []
         | .ready room => type = 5 ∧ payload = [BitVec.ofNat 8 room] ∧ room ≤ 4)) ∧
  (∀ bytes : List Byte, lineCorrupt (.delimited bytes) = true ↔ parseFrame bytes = none) ∧
  lineCorrupt .cutShort = true ∧ lineCorrupt .stray = true ∧ lineCorrupt .overlong = true

/-! ### What only some commands change -/

/-- The memory (R49, R122, R126, R132, R150, R182): no command but the completion of a burst, the copy of a commit, the reset
event and the reset line changes a byte or a check code; a COL_READ_COMPLETE in whose words nothing has flipped changes none
either. The committed set, the staged set, the windows and the holder of the control role (R119, R120, R121, R125, R132,
R140, R144) each change only at the commands that their rules name. -/
def Obligations.MemoryAndControlStateChangeOnlyAtNamedCommands : Prop :=
  ∀ (c : Instr) (s t : State), exec c s = .next t → c ≠ .resetLineAsserted → c ≠ .resetLineReleased →
    (c ≠ .colWriteComplete → c ≠ .commitCopy → c ≠ .resetEvent →
        (∀ flips, c = .colReadComplete flips → ∀ f ∈ flips, f = 0) →
        ∀ a, t.hub.dram.byteAt a = s.hub.dram.byteAt a ∧ t.hub.dram.codeAt a = s.hub.dram.codeAt a) ∧
      (c ≠ .commitCopy → c ≠ .resetEvent → t.hub.config.committed = s.hub.config.committed) ∧
      ((∀ p, c ≠ .configSet p) → c ≠ .resetEvent → t.hub.config.staged = s.hub.config.staged) ∧
      ((∀ p, c ≠ .windowSet p) → c ≠ .resetEvent → t.hub.windows = s.hub.windows) ∧
      ((∀ p, c ≠ .claim p ∧ c ≠ .handover p ∧ c ≠ .replayTimerExpiry p ∧ (∀ f, c ≠ .alignReceived p f) ∧
          ∀ f, c ≠ .corruptFrame p f) → t.hub.config.holder = s.hub.config.holder)

/-! ### Laws that every step keeps -/

/-- The memory's canonical form, the role on a port whose link is UP, and the lists of the ports within their sizes (R20, R81, R116,
R159, R170, R172, R177). The frames of a replay list have consecutive sequences that end before the send sequence, and the
room timer and the full wait stand only with the far-end room at 0 (R172, R173, R174, R175). -/
def Obligations.StepsKeepMemoryFormRoleAndListSizes : Prop :=
  KeptByEveryStep MemoryLaw ∧ KeptByEveryStep RoleLaw ∧ KeptByEveryStep BoundsLaw ∧ KeptByEveryStep LinkLaw

/-- Quotas and indices, at most one ACTIVE entry without an aborting mark (R3, R4, R46, R123), and the windows inside the
memory, those of one port apart in port space (R136, R140, R142). -/
def Obligations.StepsKeepQuotasOneActiveAndWindows : Prop :=
  KeptByEveryStep QuotaLaw ∧ KeptByEveryStep OneActiveLaw ∧ KeptByEveryStep WindowsInside ∧ KeptByEveryStep WindowsApart

/-- During an UPKEEP every bank is CLOSED and no burst is in flight; while RESTING nothing is open and nothing is owed, and
outside SERVING no entry is served (R35, R46, R52, R107). -/
def Obligations.StepsKeepUpkeepAndRestApartFromService : Prop :=
  KeptByEveryStep UpkeepLaw ∧ KeptByEveryStep RestingLaw

/-- Overlapping leases of different ports are both GUARD, and no request waits that nothing blocks (R80, R89). -/
def Obligations.StepsKeepTheLeasesApartAndTheWaitsBlocked : Prop :=
  KeptByEveryStep LeasesApart ∧ KeptByEveryStep WaitLaw

/-- The entries agree with the burst in flight and the pending replies (R16, R17, R21). A bring-up record stands
only in BRINGUP with no change pending; the burst in flight is to a bank OPEN at its entry's row (R31, R46); no two outstanding
requests of one port carry one tag, and a port's tag set is the tags of its outstanding requests (R156, R158). -/
def Obligations.StepsKeepTheEntriesInAgreement : Prop :=
  KeptByEveryStep EntryLaw ∧ KeptByEveryStep BringupLaw ∧
    KeptByEveryStep (fun h => EntryLaw h ∧ BringupLaw h ∧ BurstLaw h) ∧
    KeptByEveryStep (fun h => EntryLaw h ∧ BringupLaw h ∧ SlotsLaw h ∧ TagLaw h)

/-- Hazard order (R9, R13, R14): no entry is QUEUED or ACTIVE behind an unfinished one that it is in hazard with. Two entries
are in hazard when they are of one port, their ranges have a byte in common and one of them is a WRITE (R8); an unfinished entry
is HELD, QUEUED or ACTIVE; the predecessor of an entry is the youngest of the unfinished ones ahead in hazard with it (R9). -/
def Obligations.StepsKeepHazardOrder : Prop :=
  KeptByEveryStep (fun h => EntryLaw h ∧ OrderLaw h) ∧
  (∀ a m b n : Nat, rangesOverlap a m b n = true → 0 < m → 0 < n →
    ∃ x, a ≤ x ∧ x < a + m ∧ b ≤ x ∧ x < b + n) ∧
  (∀ a m b n x : Nat, a ≤ x → x < a + m → b ≤ x → x < b + n → rangesOverlap a m b n = true) ∧
  (∀ a b : Entry, (hazard a b = true ↔ a.port = b.port ∧
      rangesOverlap a.addr (a.words * 8) b.addr (b.words * 8) = true ∧ (a.kind = .write ∨ b.kind = .write)) ∧
    (a.unfinished = true ↔ a.phase = .held ∨ a.phase = .queued ∨ a.phase = .active)) ∧
  ∀ (ahead : List Entry) (e : Entry),
    ((∀ a ∈ ahead, ¬ (a.unfinished = true ∧ hazard a e = true)) → predecessorAmong ahead e = none) ∧
      ∀ older a younger, ahead = older ++ a :: younger → a.unfinished = true → hazard a e = true →
        (∀ x ∈ younger, ¬ (x.unfinished = true ∧ hazard x e = true)) → predecessorAmong ahead e = some a.index

/-- A granted lease keeps conflicting entries of other ports HELD, and a GRANTING one keeps them HELD or drains them (R11, R77,
R82, R84, R88). A GRANTING lease drains at least one entry, and drains only occupied ones (R83, R84). An entry HELD with LEASE
conflicts with a lease in the table, so the leaving of the last such lease releases it (R11, R88). The re-check (R88): each entry
HELD with LEASE that conflicts with no lease in the table loses LEASE, and becomes QUEUED if it has no other hold (R12); nothing
else changes. A lease conflicts with a transaction of another port whose range overlaps its own, if the lease is SOLE or the
transaction a WRITE (R77). -/
def Obligations.StepsKeepWhatALeaseHolds : Prop :=
  KeptByEveryStep (fun h => EntryLaw h ∧ GrantLaw h) ∧ KeptByEveryStep DrainLaw ∧ KeptByEveryStep LeaseHoldLaw ∧
  (∀ h : Hub, h.recheck = { h with table := h.table.map (fun (e : Entry) =>
     if e.phase = .held ∧ e.holds.lease = true ∧
         someLease h (fun l => l.conflictsWith e.port e.kind e.addr (e.words * 8)) = false then
       { e with
         holds := { e.holds with lease := false }
         phase := if e.holds.order = none ∧ e.holds.fencesAhead = 0 ∧ e.holds.channel = false then .queued else .held }
     else e) }) ∧
  (∀ e : Entry, e.promote = if e.phase = .held ∧ e.holds = Holds.none then { e with phase := .queued } else e) ∧
  ∀ (l : Lease) (p : Port) (kind : Access) (addr length : Nat), l.conflictsWith p kind addr length = true ↔
    l.owner ≠ p ∧ rangesOverlap l.base l.length addr length = true ∧ (l.mode = .sole ∨ kind = .write)
end

