-- ==== Sys2Proof/Laws/CheckCode.lean ====
section
/-! SUPPORT. The columns that stand in for the free ones have the two properties of R147: all have odd weight and no two
are alike, so no two of them add up to a third. -/

namespace Sys2Proof.Machine.CheckCode

/-- The parity of the bits of a byte. -/
def oddWeight (b : Byte) : Bool :=
  b.getLsbD 0 ^^ b.getLsbD 1 ^^ b.getLsbD 2 ^^ b.getLsbD 3 ^^ b.getLsbD 4 ^^ b.getLsbD 5 ^^ b.getLsbD 6 ^^ b.getLsbD 7

/-- Adding a sum of two bits to a sum, part by part. -/
theorem xor_parts {x a b : Bool} (h : x = (a ^^ b)) (c d : Bool) : (x ^^ (c ^^ d)) = ((a ^^ c) ^^ (b ^^ d)) := by
  subst h
  cases a <;> cases b <;> cases c <;> cases d <;> rfl

/-- The parity of a sum is the sum of the parities. -/
theorem odd_weight_xor (a b : Byte) : oddWeight (a ^^^ b) = (oddWeight a ^^ oddWeight b) := by
  simp only [oddWeight, BitVec.getLsbD_xor]
  exact xor_parts (xor_parts (xor_parts (xor_parts (xor_parts (xor_parts (xor_parts rfl _ _) _ _) _ _) _ _) _ _) _ _) _ _

/-- All 72 columns have odd weight. -/
theorem columns_odd : (oddColumns ++ codeBitColumns).all oddWeight = true := by decide +kernel

/-- No two of the 72 columns are alike. -/
theorem columns_distinct : (oddColumns ++ codeBitColumns).Nodup := by decide +kernel

/-- The columns that stand in for the free ones locate every one-bit error and find every two-bit error. -/
theorem odd_columns_locate : locatesAndDetects oddColumns = true := by
  have odd := columns_odd
  rw [List.all_eq_true] at odd
  have len : oddColumns.length = 64 := by decide +kernel
  simp only [locatesAndDetects, len, columns_distinct, decide_true, Bool.true_and, Bool.and_eq_true, List.all_eq_true]
  refine ⟨?_, ?_⟩
  · intro a ha
    have h := odd a ha
    rw [bne_iff_ne]
    rintro rfl
    exact absurd h (by decide)
  · intro a ha b hb
    have h : oddWeight (a ^^^ b) = false := by rw [odd_weight_xor, odd a ha, odd b hb]; rfl
    have : (oddColumns ++ codeBitColumns).contains (a ^^^ b) = false := by
      rw [List.contains_eq_mem, decide_eq_false_iff_not]
      intro hm
      rw [odd _ hm] at h
      cases h
    rw [this]
    simp

/-- The columns in force have the two properties, whatever the free ones are. -/
theorem columns_locate : locatesAndDetects columns = true := by
  by_cases h : locatesAndDetects ((List.range 64).map Config.checkColumn) = true
  · simp [columns, h]
  · simp [columns, h, odd_columns_locate]

end Sys2Proof.Machine.CheckCode
end

