-- ==== Sys2Proof/Laws/Dispatch.lean ====
section
/-! SUPPORT. What each command runs: the effect on the hub that `State.perform` applies, or the shared operation of the
column commands. All are true by `rfl`. -/

namespace Sys2Proof.Machine

@[simp] theorem exec_read (p : Port) (s : State) : exec (.read p) s = s.perform (fun h => h.takeRead p) := rfl
@[simp] theorem exec_write (p : Port) (s : State) : exec (.write p) s = s.perform (fun h => h.takeWrite p) := rfl
@[simp] theorem exec_fence (p : Port) (s : State) : exec (.fence p) s = s.perform (fun h => h.takeFence p) := rfl
@[simp] theorem exec_lease_take (p : Port) (s : State) :
    exec (.leaseTake p) s = s.perform (fun h => h.takeLeaseTake p) := rfl
@[simp] theorem exec_lease_drop (p : Port) (s : State) :
    exec (.leaseDrop p) s = s.perform (fun h => h.takeLeaseDrop p) := rfl
@[simp] theorem exec_lease_renew (p : Port) (s : State) :
    exec (.leaseRenew p) s = s.perform (fun h => h.takeLeaseRenew p) := rfl
@[simp] theorem exec_rest (p : Port) (s : State) : exec (.rest p) s = s.perform (fun h => h.takeRest p) := rfl
@[simp] theorem exec_wake (p : Port) (s : State) : exec (.wake p) s = s.perform (fun h => h.takeWake p) := rfl
@[simp] theorem exec_query (p : Port) (s : State) : exec (.query p) s = s.perform (fun h => h.takeQuery p) := rfl
@[simp] theorem exec_config_set (p : Port) (s : State) :
    exec (.configSet p) s = s.perform (fun h => h.takeConfigSet p) := rfl
@[simp] theorem exec_config_commit (p : Port) (s : State) :
    exec (.configCommit p) s = s.perform (fun h => h.takeConfigCommit p) := rfl
@[simp] theorem exec_window_set (p : Port) (s : State) :
    exec (.windowSet p) s = s.perform (fun h => h.takeWindowSet p) := rfl
@[simp] theorem exec_handover (p : Port) (s : State) :
    exec (.handover p) s = s.perform (fun h => h.takeHandover p) := rfl
@[simp] theorem exec_claim (p : Port) (s : State) : exec (.claim p) s = s.perform (fun h => h.takeClaim p) := rfl
@[simp] theorem exec_hub_reset (p : Port) (s : State) :
    exec (.hubReset p) s = s.perform (fun h => h.takeHubReset p) := rfl
@[simp] theorem exec_malformed_message (p : Port) (s : State) :
    exec (.malformedMessage p) s = s.perform (fun h => h.takeMalformed p) := rfl
@[simp] theorem exec_place_reply (p : Port) (s : State) :
    exec (.placeReply p) s = s.perform (fun h => h.placeReply p) := rfl
@[simp] theorem exec_place_notice (p : Port) (s : State) :
    exec (.placeNotice p) s = s.perform (fun h => h.placeNotice p) := rfl
@[simp] theorem exec_message_frame_received (p : Port) (line : List LineSymbol) (s : State) :
    exec (.messageFrameReceived p line) s = s.perform (fun h => h.messageFrame p line) := rfl
@[simp] theorem exec_ack_received (p : Port) (line : List LineSymbol) (s : State) :
    exec (.ackReceived p line) s = s.perform (fun h => h.ackFrame p line) := rfl
@[simp] theorem exec_nak_received (p : Port) (line : List LineSymbol) (s : State) :
    exec (.nakReceived p line) s = s.perform (fun h => h.nakFrame p line) := rfl
@[simp] theorem exec_align_received (p : Port) (line : List LineSymbol) (s : State) :
    exec (.alignReceived p line) s = s.perform (fun h => h.alignFrame p line) := rfl
@[simp] theorem exec_ready_received (p : Port) (line : List LineSymbol) (s : State) :
    exec (.readyReceived p line) s = s.perform (fun h => h.readyFrame p line) := rfl
@[simp] theorem exec_corrupt_frame (p : Port) (line : List LineSymbol) (s : State) :
    exec (.corruptFrame p line) s = s.perform (fun h => h.corruptFrame p line) := rfl
@[simp] theorem exec_training_timer_expiry (p : Port) (s : State) :
    exec (.trainingTimerExpiry p) s = s.perform (fun h => h.trainingExpiry p) := rfl
@[simp] theorem exec_align_sent (p : Port) (s : State) :
    exec (.alignSent p) s = s.perform (fun h => h.sendAlign p) := rfl
@[simp] theorem exec_ready_sent (p : Port) (s : State) :
    exec (.readySent p) s = s.perform (fun h => h.sendReady p) := rfl
@[simp] theorem exec_ack_sent (p : Port) (s : State) : exec (.ackSent p) s = s.perform (fun h => h.sendAck p) := rfl
@[simp] theorem exec_message_frame_sent (p : Port) (s : State) :
    exec (.messageFrameSent p) s = s.perform (fun h => h.sendMessage p) := rfl
@[simp] theorem exec_frame_resent (p : Port) (s : State) :
    exec (.frameResent p) s = s.perform (fun h => h.resendFrame p) := rfl
@[simp] theorem exec_replay_timer_expiry (p : Port) (s : State) :
    exec (.replayTimerExpiry p) s = s.perform (fun h => h.replayExpiry p) := rfl
@[simp] theorem exec_room_timer_expiry (p : Port) (s : State) :
    exec (.roomTimerExpiry p) s = s.perform (fun h => h.roomExpiry p) := rfl
@[simp] theorem exec_row_open (b : BankNo) (s : State) :
    exec (.rowOpen b) s = s.perform (fun h => h.issueRowOpen b) := rfl
@[simp] theorem exec_row_close (b : BankNo) (s : State) :
    exec (.rowClose b) s = s.perform (fun h => h.issueRowClose b) := rfl
@[simp] theorem exec_bank_opened (b : BankNo) (s : State) :
    exec (.bankOpened b) s = s.perform (fun h => h.bankOpens b) := rfl
@[simp] theorem exec_bank_closed (b : BankNo) (s : State) :
    exec (.bankClosed b) s = s.perform (fun h => h.bankCloses b) := rfl
@[simp] theorem exec_open_mark_passed (b : BankNo) (s : State) :
    exec (.openMarkPassed b) s = s.perform (fun h => h.passOpenMark b) := rfl
@[simp] theorem exec_write_recovery_mark_passed (b : BankNo) (s : State) :
    exec (.writeRecoveryMarkPassed b) s = s.perform (fun h => h.passWriteMark b) := rfl
@[simp] theorem exec_col_read (i : Index) (s : State) : exec (.colRead i) s = s.column i .read := rfl
@[simp] theorem exec_col_write (i : Index) (s : State) : exec (.colWrite i) s = s.column i .write := rfl
@[simp] theorem exec_col_read_complete (flips : List (BitVec 72)) (s : State) :
    exec (.colReadComplete flips) s = s.perform (fun h => h.completeRead flips) := rfl
@[simp] theorem exec_col_write_complete (s : State) : exec .colWriteComplete s = s.perform Hub.completeWrite := rfl
@[simp] theorem exec_all_close (s : State) : exec .allClose s = s.perform Hub.issueAllClose := rfl
@[simp] theorem exec_all_close_complete (s : State) : exec .allCloseComplete s = s.perform Hub.completeAllClose := rfl
@[simp] theorem exec_mode_load (s : State) : exec .modeLoad s = s.perform Hub.issueModeLoad := rfl
@[simp] theorem exec_mode_load_complete (s : State) : exec .modeLoadComplete s = s.perform Hub.completeModeLoad := rfl
@[simp] theorem exec_upkeep (s : State) : exec .upkeep s = s.perform Hub.issueUpkeep := rfl
@[simp] theorem exec_upkeep_complete (s : State) : exec .upkeepComplete s = s.perform Hub.completeUpkeep := rfl
@[simp] theorem exec_retain_enter (s : State) : exec .retainEnter s = s.perform Hub.issueRetainEnter := rfl
@[simp] theorem exec_retain_exit (s : State) : exec .retainExit s = s.perform Hub.issueRetainExit := rfl
@[simp] theorem exec_retain_exit_complete (s : State) :
    exec .retainExitComplete s = s.perform Hub.completeRetainExit := rfl
@[simp] theorem exec_interval_timer_expiry (s : State) :
    exec .intervalTimerExpiry s = s.perform Hub.intervalExpiry := rfl
@[simp] theorem exec_lease_expiry (id : LeaseId) (s : State) :
    exec (.leaseExpiry id) s = s.perform (fun h => h.expireLease id) := rfl
@[simp] theorem exec_wait_deadline (p : Port) (tag : Byte) (s : State) :
    exec (.waitDeadline p tag) s = s.perform (fun h => h.passDeadline p tag) := rfl
@[simp] theorem exec_settle_end (s : State) : exec .settleEnd s = s.perform Hub.endSettle := rfl
@[simp] theorem exec_commit_copy (s : State) : exec .commitCopy s = s.perform Hub.copy := rfl
@[simp] theorem exec_reset_event (s : State) : exec .resetEvent s = s.perform Hub.resetEvent := rfl

end Sys2Proof.Machine
end

