-- ==== Sys2Proof/Laws/Memory.lean ====
section
/-! SUPPORT. The laws of the memory: reading after writing, and the canonical form that every operation keeps. -/

namespace Sys2Proof.Machine

/-- A read after a write: the byte written at its address, the byte that was there at every other. -/
theorem mem_read_write (m : List Host.Cell) (a b : Nat) (x : Byte) :
    Mem.read (Mem.write m a x) b = if b = a then some x else Mem.read m b := by
  induction m with
  | nil => simp only [Mem.write, Mem.read, eq_comm]
  | cons c rest ih =>
    unfold Mem.write
    by_cases h1 : a < c.1
    · rw [if_pos h1]
      simp only [Mem.read, eq_comm]
    · rw [if_neg h1]
      by_cases h2 : a = c.1
      · rw [if_pos h2]
        simp only [Mem.read]
        by_cases h : b = a
        · simp [h]
        · have h3 : c.1 ≠ b := fun e => h (by rw [h2, e])
          simp [h, h3, Ne.symm h]
      · rw [if_neg h2]
        simp only [Mem.read, ih]
        by_cases h : c.1 = b
        · have h3 : b ≠ a := fun e => h2 (by rw [h, e])
          simp [h, h3]
        · simp [h]

/-- The canonical form, said of all the addresses at once. -/
theorem mem_wf_iff (m : List Host.Cell) : Mem.wf m = true ↔ m.Pairwise (fun c d => c.1 < d.1) := by
  induction m with
  | nil => simp [Mem.wf]
  | cons c rest ih =>
    cases rest with
    | nil => simp [Mem.wf]
    | cons d rest =>
      simp only [Mem.wf, Bool.and_eq_true, decide_eq_true_eq, ih, List.pairwise_cons]
      constructor
      · rintro ⟨h, h2, h3⟩
        refine ⟨?_, h2, h3⟩
        intro x hx
        rcases List.mem_cons.mp hx with rfl | hx
        · exact h
        · exact lt_trans h (h2 x hx)
      · rintro ⟨h, h2, h3⟩
        exact ⟨h d (by simp), h2, h3⟩

/-- The addresses of a list after a write are those before it, and the address written. -/
theorem mem_write_addr (m : List Host.Cell) (a : Nat) (x : Byte) :
    ∀ c ∈ Mem.write m a x, c.1 = a ∨ c ∈ m := by
  induction m with
  | nil => simp [Mem.write]
  | cons d rest ih =>
    unfold Mem.write
    split_ifs with h1 h2
    · intro c hc
      rcases List.mem_cons.mp hc with rfl | hc
      · exact Or.inl rfl
      · exact Or.inr hc
    · intro c hc
      rcases List.mem_cons.mp hc with rfl | hc
      · exact Or.inl rfl
      · exact Or.inr (List.mem_cons_of_mem _ hc)
    · intro c hc
      rcases List.mem_cons.mp hc with rfl | hc
      · exact Or.inr (by simp)
      · rcases ih c hc with h | h
        · exact Or.inl h
        · exact Or.inr (List.mem_cons_of_mem _ h)

/-- A write keeps the canonical form. -/
theorem mem_write_wf (m : List Host.Cell) (a : Nat) (x : Byte) (h : Mem.wf m = true) : Mem.wf (Mem.write m a x) = true := by
  rw [mem_wf_iff] at *
  induction m with
  | nil => simp [Mem.write]
  | cons d rest ih =>
    have ⟨h1, h2⟩ := List.pairwise_cons.mp h
    unfold Mem.write
    split_ifs with h3 h4
    · refine List.pairwise_cons.mpr ⟨?_, h⟩
      intro c hc
      rcases List.mem_cons.mp hc with rfl | hc
      · exact h3
      · exact lt_trans h3 (h1 c hc)
    · exact List.pairwise_cons.mpr ⟨fun c hc => by simpa [h4] using h1 c hc, h2⟩
    · refine List.pairwise_cons.mpr ⟨?_, ih h2⟩
      intro c hc
      rcases mem_write_addr rest a x c hc with h5 | h5
      · rw [h5]; omega
      · exact h1 c h5

/-- Writing successive bytes keeps the canonical form. -/
theorem mem_write_bytes_wf (m : List Host.Cell) (a : Nat) (bs : List Byte) (h : Mem.wf m = true) :
    Mem.wf (Mem.writeBytes m a bs) = true := by
  induction bs generalizing m a with
  | nil => exact h
  | cons b bs ih => exact ih _ _ (mem_write_wf m a b h)

/-- A read after successive bytes have been written. -/
theorem mem_read_write_bytes (m : List Host.Cell) (a b : Nat) (bs : List Byte) :
    Mem.read (Mem.writeBytes m a bs) b =
      if a ≤ b ∧ b < a + bs.length then bs[b - a]? else Mem.read m b := by
  induction bs generalizing m a with
  | nil => simp [Mem.writeBytes]
  | cons x bs ih =>
    simp only [Mem.writeBytes, ih, mem_read_write, List.length_cons]
    by_cases h : a + 1 ≤ b ∧ b < a + 1 + bs.length
    · have h2 : a ≤ b ∧ b < a + (bs.length + 1) := by omega
      rw [if_pos h, if_pos h2]
      have : b - a = (b - (a + 1)) + 1 := by omega
      rw [this]; rfl
    · rw [if_neg h]
      by_cases h3 : b = a
      · subst h3; simp
      · have h2 : ¬ (a ≤ b ∧ b < a + (bs.length + 1)) := by omega
        rw [if_neg h3, if_neg h2]

/-! ### The memory's operations and its canonical form -/

/-- Both lists are in canonical form. -/
theorem dram_wf_iff (d : Dram) : d.wf = true ↔ Mem.wf d.data = true ∧ Mem.wf d.codes = true := by
  simp [Dram.wf]

theorem dram_store_wf (d : Dram) (a : Nat) (w : Word) (c : Byte) (h : d.wf = true) : (d.store a w c).wf = true := by
  rw [dram_wf_iff] at *
  exact ⟨mem_write_bytes_wf _ _ _ h.1, mem_write_wf _ _ _ h.2⟩

theorem dram_flip_wf (d : Dram) (a : Nat) (f : BitVec 72) (h : d.wf = true) : (d.flip a f).wf = true := by
  unfold Dram.flip
  split
  · exact h
  · exact dram_store_wf d a _ _ h

theorem dram_store_words_wf (d : Dram) (a : Nat) (ws : List Word) (h : d.wf = true) : (d.storeWords a ws).wf = true := by
  induction ws generalizing d a with
  | nil => exact h
  | cons w ws ih => exact ih _ _ (dram_store_wf d a w _ h)

theorem dram_forget_wf (d : Dram) : d.forget.wf = true := rfl

@[simp] theorem dram_issue_wf (d : Dram) (c : DramCommand) : (d.issue c).wf = d.wf := rfl

/-- Nothing flipped leaves the memory as it is. -/
@[simp] theorem dram_flip_none (d : Dram) (a : Nat) : d.flip a 0 = d := by simp [Dram.flip]

/-- The words of a read burst keep the canonical form. -/
theorem read_words_wf (r : ReadProgress) (a : Nat) (fs : List (BitVec 72)) (n : Nat) (h : r.dram.wf = true) :
    (r.words a fs n).dram.wf = true := by
  induction n generalizing r a fs with
  | zero => exact h
  | succ n ih =>
    refine ih _ _ _ ?_
    exact dram_flip_wf r.dram a _ h

/-- The memory of the state after reset is in canonical form. -/
theorem reset_memory_wf : State.reset.hub.dram.wf = true := rfl

/-! ### What stays when the memory changes -/

@[simp] theorem dram_store_retention (d : Dram) (a : Nat) (w : Word) (c : Byte) : (d.store a w c).retention = d.retention := rfl
@[simp] theorem dram_store_epoch (d : Dram) (a : Nat) (w : Word) (c : Byte) : (d.store a w c).epoch = d.epoch := rfl
@[simp] theorem dram_store_issued (d : Dram) (a : Nat) (w : Word) (c : Byte) : (d.store a w c).issued = d.issued := rfl
@[simp] theorem dram_store_latency (d : Dram) (a : Nat) (w : Word) (c : Byte) :
    (d.store a w c).readLatency = d.readLatency := rfl
@[simp] theorem dram_issue_byte (d : Dram) (c : DramCommand) (a : Nat) : (d.issue c).byteAt a = d.byteAt a := rfl
@[simp] theorem dram_issue_code (d : Dram) (c : DramCommand) (a : Nat) : (d.issue c).codeAt a = d.codeAt a := rfl

/-- A byte after a word has been stored: one of the word's, or the byte that was there. -/
theorem dram_store_byte (d : Dram) (a b : Nat) (w : Word) (c : Byte) :
    (d.store a w c).byteAt b =
      if a ≤ b ∧ b < a + (wordBytes w).length then ((wordBytes w)[b - a]?).getD (Config.unwrittenByte d.epoch b)
      else d.byteAt b := by
  simp only [Dram.byteAt, Dram.store, mem_read_write_bytes]
  split <;> rfl

/-- A code after a word has been stored. -/
theorem dram_store_code (d : Dram) (a b : Nat) (w : Word) (c : Byte) :
    (d.store a w c).codeAt b = if b / 8 = a / 8 then c else d.codeAt b := by
  simp only [Dram.codeAt, Dram.store, mem_read_write]
  split <;> rfl

end Sys2Proof.Machine
end

