-- ==== Sys2Proof/Laws/State.lean ====
section
/-! SUPPORT. One lemma for each field of the hub and each record update of the shared operations: what the update leaves
and what it puts there. All are true by `rfl`; with them no proof unfolds a record update. -/

namespace Sys2Proof.Machine

/-! ### Four like items -/

theorem quad_get_set_same {α : Type} (q : Quad α) (p : Port) (a : α) : (q.set p a).get p = a := by
  revert p; intro p; fin_cases p <;> rfl

theorem quad_get_set_other {α : Type} (q : Quad α) {p r : Port} (a : α) (h : r ≠ p) : (q.set p a).get r = q.get r := by
  revert h; fin_cases p <;> fin_cases r <;> simp [Quad.set, Quad.get]

@[simp] theorem quad_get_set {α : Type} (q : Quad α) (p r : Port) (a : α) :
    (q.set p a).get r = if r = p then a else q.get r := by
  by_cases h : r = p
  · subst h; simp [quad_get_set_same]
  · simp [h, quad_get_set_other q a h]

@[simp] theorem quad_get_upd {α : Type} (q : Quad α) (p r : Port) (f : α → α) :
    (q.upd p f).get r = if r = p then f (q.get p) else q.get r := quad_get_set q p r _

@[simp] theorem quad_get_map {α β : Type} (f : α → β) (q : Quad α) (p : Port) : (q.map f).get p = f (q.get p) := by
  fin_cases p <;> rfl

@[simp] theorem quad_get_zip {α β γ : Type} (f : α → β → γ) (q : Quad α) (r : Quad β) (p : Port) :
    (q.zip f r).get p = f (q.get p) (r.get p) := by
  fin_cases p <;> rfl

@[simp] theorem quad_get_all {α : Type} (a : α) (p : Port) : (Quad.all a).get p = a := by
  fin_cases p <;> rfl

/-- Two records with the same four items are the same record. -/
theorem quad_ext {α : Type} {q r : Quad α} (h : ∀ p, q.get p = r.get p) : q = r := by
  have h0 := h 0; have h1 := h 1; have h2 := h 2; have h3 := h 3
  cases q; cases r
  simp only [Quad.get] at h0 h1 h2 h3
  simp [h0, h1, h2, h3]


/-! ### `Hub.onLink` -/

@[simp] theorem Hub.onLink_resetLow (h : Hub) (p : Port) (f : Link → Link) : (h.onLink p f).resetLow = h.resetLow := rfl
@[simp] theorem Hub.onLink_now (h : Hub) (p : Port) (f : Link → Link) : (h.onLink p f).now = h.now := rfl
@[simp] theorem Hub.onLink_channel (h : Hub) (p : Port) (f : Link → Link) : (h.onLink p f).channel = h.channel := rfl
@[simp] theorem Hub.onLink_links (h : Hub) (p : Port) (f : Link → Link) : (h.onLink p f).links = h.links.upd p f := rfl
@[simp] theorem Hub.onLink_messages (h : Hub) (p : Port) (f : Link → Link) : (h.onLink p f).messages = h.messages := rfl
@[simp] theorem Hub.onLink_windows (h : Hub) (p : Port) (f : Link → Link) : (h.onLink p f).windows = h.windows := rfl
@[simp] theorem Hub.onLink_table (h : Hub) (p : Port) (f : Link → Link) : (h.onLink p f).table = h.table := rfl
@[simp] theorem Hub.onLink_scheduler (h : Hub) (p : Port) (f : Link → Link) :
    (h.onLink p f).scheduler = h.scheduler := rfl
@[simp] theorem Hub.onLink_upkeep (h : Hub) (p : Port) (f : Link → Link) : (h.onLink p f).upkeep = h.upkeep := rfl
@[simp] theorem Hub.onLink_leases (h : Hub) (p : Port) (f : Link → Link) : (h.onLink p f).leases = h.leases := rfl
@[simp] theorem Hub.onLink_rest (h : Hub) (p : Port) (f : Link → Link) : (h.onLink p f).rest = h.rest := rfl
@[simp] theorem Hub.onLink_config (h : Hub) (p : Port) (f : Link → Link) : (h.onLink p f).config = h.config := rfl
@[simp] theorem Hub.onLink_check (h : Hub) (p : Port) (f : Link → Link) : (h.onLink p f).check = h.check := rfl
@[simp] theorem Hub.onLink_dram (h : Hub) (p : Port) (f : Link → Link) : (h.onLink p f).dram = h.dram := rfl

/-! ### `Hub.onMessages` -/

@[simp] theorem Hub.onMessages_resetLow (h : Hub) (p : Port) (f : MessageLayer → MessageLayer) :
    (h.onMessages p f).resetLow = h.resetLow := rfl
@[simp] theorem Hub.onMessages_now (h : Hub) (p : Port) (f : MessageLayer → MessageLayer) :
    (h.onMessages p f).now = h.now := rfl
@[simp] theorem Hub.onMessages_channel (h : Hub) (p : Port) (f : MessageLayer → MessageLayer) :
    (h.onMessages p f).channel = h.channel := rfl
@[simp] theorem Hub.onMessages_links (h : Hub) (p : Port) (f : MessageLayer → MessageLayer) :
    (h.onMessages p f).links = h.links := rfl
@[simp] theorem Hub.onMessages_messages (h : Hub) (p : Port) (f : MessageLayer → MessageLayer) :
    (h.onMessages p f).messages = h.messages.upd p f := rfl
@[simp] theorem Hub.onMessages_windows (h : Hub) (p : Port) (f : MessageLayer → MessageLayer) :
    (h.onMessages p f).windows = h.windows := rfl
@[simp] theorem Hub.onMessages_table (h : Hub) (p : Port) (f : MessageLayer → MessageLayer) :
    (h.onMessages p f).table = h.table := rfl
@[simp] theorem Hub.onMessages_scheduler (h : Hub) (p : Port) (f : MessageLayer → MessageLayer) :
    (h.onMessages p f).scheduler = h.scheduler := rfl
@[simp] theorem Hub.onMessages_upkeep (h : Hub) (p : Port) (f : MessageLayer → MessageLayer) :
    (h.onMessages p f).upkeep = h.upkeep := rfl
@[simp] theorem Hub.onMessages_leases (h : Hub) (p : Port) (f : MessageLayer → MessageLayer) :
    (h.onMessages p f).leases = h.leases := rfl
@[simp] theorem Hub.onMessages_rest (h : Hub) (p : Port) (f : MessageLayer → MessageLayer) :
    (h.onMessages p f).rest = h.rest := rfl
@[simp] theorem Hub.onMessages_config (h : Hub) (p : Port) (f : MessageLayer → MessageLayer) :
    (h.onMessages p f).config = h.config := rfl
@[simp] theorem Hub.onMessages_check (h : Hub) (p : Port) (f : MessageLayer → MessageLayer) :
    (h.onMessages p f).check = h.check := rfl
@[simp] theorem Hub.onMessages_dram (h : Hub) (p : Port) (f : MessageLayer → MessageLayer) :
    (h.onMessages p f).dram = h.dram := rfl

/-! ### `Hub.reach` -/

@[simp] theorem Hub.reach_resetLow (h : Hub) (t : Nat) : (h.reach t).resetLow = h.resetLow := rfl
@[simp] theorem Hub.reach_now (h : Hub) (t : Nat) : (h.reach t).now = max h.now t := rfl
@[simp] theorem Hub.reach_channel (h : Hub) (t : Nat) : (h.reach t).channel = h.channel := rfl
@[simp] theorem Hub.reach_links (h : Hub) (t : Nat) : (h.reach t).links = h.links := rfl
@[simp] theorem Hub.reach_messages (h : Hub) (t : Nat) : (h.reach t).messages = h.messages := rfl
@[simp] theorem Hub.reach_windows (h : Hub) (t : Nat) : (h.reach t).windows = h.windows := rfl
@[simp] theorem Hub.reach_table (h : Hub) (t : Nat) : (h.reach t).table = h.table := rfl
@[simp] theorem Hub.reach_scheduler (h : Hub) (t : Nat) : (h.reach t).scheduler = h.scheduler := rfl
@[simp] theorem Hub.reach_upkeep (h : Hub) (t : Nat) : (h.reach t).upkeep = h.upkeep := rfl
@[simp] theorem Hub.reach_leases (h : Hub) (t : Nat) : (h.reach t).leases = h.leases := rfl
@[simp] theorem Hub.reach_rest (h : Hub) (t : Nat) : (h.reach t).rest = h.rest := rfl
@[simp] theorem Hub.reach_config (h : Hub) (t : Nat) : (h.reach t).config = h.config := rfl
@[simp] theorem Hub.reach_check (h : Hub) (t : Nat) : (h.reach t).check = h.check := rfl
@[simp] theorem Hub.reach_dram (h : Hub) (t : Nat) : (h.reach t).dram = h.dram := rfl

/-! ### `Hub.place` -/

@[simp] theorem Hub.place_resetLow (h : Hub) (p : Port) (m : OutMessage) : (h.place p m).resetLow = h.resetLow := rfl
@[simp] theorem Hub.place_now (h : Hub) (p : Port) (m : OutMessage) : (h.place p m).now = h.now := rfl
@[simp] theorem Hub.place_channel (h : Hub) (p : Port) (m : OutMessage) : (h.place p m).channel = h.channel := rfl
@[simp] theorem Hub.place_links (h : Hub) (p : Port) (m : OutMessage) :
    (h.place p m).links = h.links.upd p (fun l => { l with outbound := l.outbound ++ [m] }) := rfl
@[simp] theorem Hub.place_messages (h : Hub) (p : Port) (m : OutMessage) : (h.place p m).messages = h.messages := rfl
@[simp] theorem Hub.place_windows (h : Hub) (p : Port) (m : OutMessage) : (h.place p m).windows = h.windows := rfl
@[simp] theorem Hub.place_table (h : Hub) (p : Port) (m : OutMessage) : (h.place p m).table = h.table := rfl
@[simp] theorem Hub.place_scheduler (h : Hub) (p : Port) (m : OutMessage) : (h.place p m).scheduler = h.scheduler := rfl
@[simp] theorem Hub.place_upkeep (h : Hub) (p : Port) (m : OutMessage) : (h.place p m).upkeep = h.upkeep := rfl
@[simp] theorem Hub.place_leases (h : Hub) (p : Port) (m : OutMessage) : (h.place p m).leases = h.leases := rfl
@[simp] theorem Hub.place_rest (h : Hub) (p : Port) (m : OutMessage) : (h.place p m).rest = h.rest := rfl
@[simp] theorem Hub.place_config (h : Hub) (p : Port) (m : OutMessage) : (h.place p m).config = h.config := rfl
@[simp] theorem Hub.place_check (h : Hub) (p : Port) (m : OutMessage) : (h.place p m).check = h.check := rfl
@[simp] theorem Hub.place_dram (h : Hub) (p : Port) (m : OutMessage) : (h.place p m).dram = h.dram := rfl

/-! ### `Hub.defer` -/

@[simp] theorem Hub.defer_resetLow (h : Hub) (p : Port) (r : PendingReply) : (h.defer p r).resetLow = h.resetLow := rfl
@[simp] theorem Hub.defer_now (h : Hub) (p : Port) (r : PendingReply) : (h.defer p r).now = h.now := rfl
@[simp] theorem Hub.defer_channel (h : Hub) (p : Port) (r : PendingReply) : (h.defer p r).channel = h.channel := rfl
@[simp] theorem Hub.defer_links (h : Hub) (p : Port) (r : PendingReply) : (h.defer p r).links = h.links := rfl
@[simp] theorem Hub.defer_messages (h : Hub) (p : Port) (r : PendingReply) :
    (h.defer p r).messages = h.messages.upd p (fun m => { m with replies := m.replies ++ [r] }) := rfl
@[simp] theorem Hub.defer_windows (h : Hub) (p : Port) (r : PendingReply) : (h.defer p r).windows = h.windows := rfl
@[simp] theorem Hub.defer_table (h : Hub) (p : Port) (r : PendingReply) : (h.defer p r).table = h.table := rfl
@[simp] theorem Hub.defer_scheduler (h : Hub) (p : Port) (r : PendingReply) :
    (h.defer p r).scheduler = h.scheduler := rfl
@[simp] theorem Hub.defer_upkeep (h : Hub) (p : Port) (r : PendingReply) : (h.defer p r).upkeep = h.upkeep := rfl
@[simp] theorem Hub.defer_leases (h : Hub) (p : Port) (r : PendingReply) : (h.defer p r).leases = h.leases := rfl
@[simp] theorem Hub.defer_rest (h : Hub) (p : Port) (r : PendingReply) : (h.defer p r).rest = h.rest := rfl
@[simp] theorem Hub.defer_config (h : Hub) (p : Port) (r : PendingReply) : (h.defer p r).config = h.config := rfl
@[simp] theorem Hub.defer_check (h : Hub) (p : Port) (r : PendingReply) : (h.defer p r).check = h.check := rfl
@[simp] theorem Hub.defer_dram (h : Hub) (p : Port) (r : PendingReply) : (h.defer p r).dram = h.dram := rfl

/-! ### `Hub.addTag` -/

@[simp] theorem Hub.addTag_resetLow (h : Hub) (p : Port) (tag : Byte) : (h.addTag p tag).resetLow = h.resetLow := rfl
@[simp] theorem Hub.addTag_now (h : Hub) (p : Port) (tag : Byte) : (h.addTag p tag).now = h.now := rfl
@[simp] theorem Hub.addTag_channel (h : Hub) (p : Port) (tag : Byte) : (h.addTag p tag).channel = h.channel := rfl
@[simp] theorem Hub.addTag_links (h : Hub) (p : Port) (tag : Byte) : (h.addTag p tag).links = h.links := rfl
@[simp] theorem Hub.addTag_messages (h : Hub) (p : Port) (tag : Byte) :
    (h.addTag p tag).messages = h.messages.upd p (fun m => { m with tags := m.tags ++ [tag] }) := rfl
@[simp] theorem Hub.addTag_windows (h : Hub) (p : Port) (tag : Byte) : (h.addTag p tag).windows = h.windows := rfl
@[simp] theorem Hub.addTag_table (h : Hub) (p : Port) (tag : Byte) : (h.addTag p tag).table = h.table := rfl
@[simp] theorem Hub.addTag_scheduler (h : Hub) (p : Port) (tag : Byte) : (h.addTag p tag).scheduler = h.scheduler := rfl
@[simp] theorem Hub.addTag_upkeep (h : Hub) (p : Port) (tag : Byte) : (h.addTag p tag).upkeep = h.upkeep := rfl
@[simp] theorem Hub.addTag_leases (h : Hub) (p : Port) (tag : Byte) : (h.addTag p tag).leases = h.leases := rfl
@[simp] theorem Hub.addTag_rest (h : Hub) (p : Port) (tag : Byte) : (h.addTag p tag).rest = h.rest := rfl
@[simp] theorem Hub.addTag_config (h : Hub) (p : Port) (tag : Byte) : (h.addTag p tag).config = h.config := rfl
@[simp] theorem Hub.addTag_check (h : Hub) (p : Port) (tag : Byte) : (h.addTag p tag).check = h.check := rfl
@[simp] theorem Hub.addTag_dram (h : Hub) (p : Port) (tag : Byte) : (h.addTag p tag).dram = h.dram := rfl

/-! ### `Hub.notify` -/

@[simp] theorem Hub.notify_resetLow (h : Hub) (p : Port) (k : NoticeKind) (d : Nat) (x : Option Handle) :
    (h.notify p k d x).resetLow = h.resetLow := rfl
@[simp] theorem Hub.notify_now (h : Hub) (p : Port) (k : NoticeKind) (d : Nat) (x : Option Handle) :
    (h.notify p k d x).now = h.now := rfl
@[simp] theorem Hub.notify_channel (h : Hub) (p : Port) (k : NoticeKind) (d : Nat) (x : Option Handle) :
    (h.notify p k d x).channel = h.channel := rfl
@[simp] theorem Hub.notify_links (h : Hub) (p : Port) (k : NoticeKind) (d : Nat) (x : Option Handle) :
    (h.notify p k d x).links = h.links := rfl
@[simp] theorem Hub.notify_messages (h : Hub) (p : Port) (k : NoticeKind) (d : Nat) (x : Option Handle) :
    (h.notify p k d x).messages = h.messages.upd p (fun m => m.give k d x) := rfl
@[simp] theorem Hub.notify_windows (h : Hub) (p : Port) (k : NoticeKind) (d : Nat) (x : Option Handle) :
    (h.notify p k d x).windows = h.windows := rfl
@[simp] theorem Hub.notify_table (h : Hub) (p : Port) (k : NoticeKind) (d : Nat) (x : Option Handle) :
    (h.notify p k d x).table = h.table := rfl
@[simp] theorem Hub.notify_scheduler (h : Hub) (p : Port) (k : NoticeKind) (d : Nat) (x : Option Handle) :
    (h.notify p k d x).scheduler = h.scheduler := rfl
@[simp] theorem Hub.notify_upkeep (h : Hub) (p : Port) (k : NoticeKind) (d : Nat) (x : Option Handle) :
    (h.notify p k d x).upkeep = h.upkeep := rfl
@[simp] theorem Hub.notify_leases (h : Hub) (p : Port) (k : NoticeKind) (d : Nat) (x : Option Handle) :
    (h.notify p k d x).leases = h.leases := rfl
@[simp] theorem Hub.notify_rest (h : Hub) (p : Port) (k : NoticeKind) (d : Nat) (x : Option Handle) :
    (h.notify p k d x).rest = h.rest := rfl
@[simp] theorem Hub.notify_config (h : Hub) (p : Port) (k : NoticeKind) (d : Nat) (x : Option Handle) :
    (h.notify p k d x).config = h.config := rfl
@[simp] theorem Hub.notify_check (h : Hub) (p : Port) (k : NoticeKind) (d : Nat) (x : Option Handle) :
    (h.notify p k d x).check = h.check := rfl
@[simp] theorem Hub.notify_dram (h : Hub) (p : Port) (k : NoticeKind) (d : Nat) (x : Option Handle) :
    (h.notify p k d x).dram = h.dram := rfl

/-! ### `Hub.notifyUp` -/

@[simp] theorem Hub.notifyUp_resetLow (h : Hub) (k : NoticeKind) (d : Nat) :
    (h.notifyUp k d).resetLow = h.resetLow := rfl
@[simp] theorem Hub.notifyUp_now (h : Hub) (k : NoticeKind) (d : Nat) : (h.notifyUp k d).now = h.now := rfl
@[simp] theorem Hub.notifyUp_channel (h : Hub) (k : NoticeKind) (d : Nat) : (h.notifyUp k d).channel = h.channel := rfl
@[simp] theorem Hub.notifyUp_links (h : Hub) (k : NoticeKind) (d : Nat) : (h.notifyUp k d).links = h.links := rfl
@[simp] theorem Hub.notifyUp_messages (h : Hub) (k : NoticeKind) (d : Nat) :
    (h.notifyUp k d).messages = h.links.zip (fun l m => if l.state = .up then m.give k d none else m) h.messages := rfl
@[simp] theorem Hub.notifyUp_windows (h : Hub) (k : NoticeKind) (d : Nat) : (h.notifyUp k d).windows = h.windows := rfl
@[simp] theorem Hub.notifyUp_table (h : Hub) (k : NoticeKind) (d : Nat) : (h.notifyUp k d).table = h.table := rfl
@[simp] theorem Hub.notifyUp_scheduler (h : Hub) (k : NoticeKind) (d : Nat) :
    (h.notifyUp k d).scheduler = h.scheduler := rfl
@[simp] theorem Hub.notifyUp_upkeep (h : Hub) (k : NoticeKind) (d : Nat) : (h.notifyUp k d).upkeep = h.upkeep := rfl
@[simp] theorem Hub.notifyUp_leases (h : Hub) (k : NoticeKind) (d : Nat) : (h.notifyUp k d).leases = h.leases := rfl
@[simp] theorem Hub.notifyUp_rest (h : Hub) (k : NoticeKind) (d : Nat) : (h.notifyUp k d).rest = h.rest := rfl
@[simp] theorem Hub.notifyUp_config (h : Hub) (k : NoticeKind) (d : Nat) : (h.notifyUp k d).config = h.config := rfl
@[simp] theorem Hub.notifyUp_check (h : Hub) (k : NoticeKind) (d : Nat) : (h.notifyUp k d).check = h.check := rfl
@[simp] theorem Hub.notifyUp_dram (h : Hub) (k : NoticeKind) (d : Nat) : (h.notifyUp k d).dram = h.dram := rfl

/-! ### `Hub.afterTaking` -/

@[simp] theorem Hub.afterTaking_resetLow (h : Hub) (p : Port) (r : List (List Byte)) :
    (h.afterTaking p r).resetLow = h.resetLow := rfl
@[simp] theorem Hub.afterTaking_now (h : Hub) (p : Port) (r : List (List Byte)) : (h.afterTaking p r).now = h.now := rfl
@[simp] theorem Hub.afterTaking_channel (h : Hub) (p : Port) (r : List (List Byte)) :
    (h.afterTaking p r).channel = h.channel := rfl
@[simp] theorem Hub.afterTaking_links (h : Hub) (p : Port) (r : List (List Byte)) :
    (h.afterTaking p r).links = h.links.upd p (fun l =>
      { (if l.inbound.length = 4 then l.oweAck h.now else l) with inbound := r }) := rfl
@[simp] theorem Hub.afterTaking_messages (h : Hub) (p : Port) (r : List (List Byte)) :
    (h.afterTaking p r).messages = h.messages.upd p (fun m => { m with taken := rise32 m.taken }) := rfl
@[simp] theorem Hub.afterTaking_windows (h : Hub) (p : Port) (r : List (List Byte)) :
    (h.afterTaking p r).windows = h.windows := rfl
@[simp] theorem Hub.afterTaking_table (h : Hub) (p : Port) (r : List (List Byte)) :
    (h.afterTaking p r).table = h.table := rfl
@[simp] theorem Hub.afterTaking_scheduler (h : Hub) (p : Port) (r : List (List Byte)) :
    (h.afterTaking p r).scheduler = h.scheduler := rfl
@[simp] theorem Hub.afterTaking_upkeep (h : Hub) (p : Port) (r : List (List Byte)) :
    (h.afterTaking p r).upkeep = h.upkeep := rfl
@[simp] theorem Hub.afterTaking_leases (h : Hub) (p : Port) (r : List (List Byte)) :
    (h.afterTaking p r).leases = h.leases := rfl
@[simp] theorem Hub.afterTaking_rest (h : Hub) (p : Port) (r : List (List Byte)) :
    (h.afterTaking p r).rest = h.rest := rfl
@[simp] theorem Hub.afterTaking_config (h : Hub) (p : Port) (r : List (List Byte)) :
    (h.afterTaking p r).config = h.config := rfl
@[simp] theorem Hub.afterTaking_check (h : Hub) (p : Port) (r : List (List Byte)) :
    (h.afterTaking p r).check = h.check := rfl
@[simp] theorem Hub.afterTaking_dram (h : Hub) (p : Port) (r : List (List Byte)) :
    (h.afterTaking p r).dram = h.dram := rfl

/-! ### `Hub.release` -/

@[simp] theorem Hub.release_resetLow (h : Hub) (gone : List Index) : (h.release gone).resetLow = h.resetLow := rfl
@[simp] theorem Hub.release_now (h : Hub) (gone : List Index) : (h.release gone).now = h.now := rfl
@[simp] theorem Hub.release_channel (h : Hub) (gone : List Index) : (h.release gone).channel = h.channel := rfl
@[simp] theorem Hub.release_links (h : Hub) (gone : List Index) : (h.release gone).links = h.links := rfl
@[simp] theorem Hub.release_messages (h : Hub) (gone : List Index) :
    (h.release gone).messages = h.messages.map (fun m => m.unwatch gone) := rfl
@[simp] theorem Hub.release_windows (h : Hub) (gone : List Index) : (h.release gone).windows = h.windows := rfl
@[simp] theorem Hub.release_table (h : Hub) (gone : List Index) :
    (h.release gone).table = reorder gone [] h.table := rfl
@[simp] theorem Hub.release_scheduler (h : Hub) (gone : List Index) : (h.release gone).scheduler = h.scheduler := rfl
@[simp] theorem Hub.release_upkeep (h : Hub) (gone : List Index) : (h.release gone).upkeep = h.upkeep := rfl
@[simp] theorem Hub.release_leases (h : Hub) (gone : List Index) : (h.release gone).leases = h.leases := rfl
@[simp] theorem Hub.release_rest (h : Hub) (gone : List Index) : (h.release gone).rest = h.rest := rfl
@[simp] theorem Hub.release_config (h : Hub) (gone : List Index) : (h.release gone).config = h.config := rfl
@[simp] theorem Hub.release_check (h : Hub) (gone : List Index) : (h.release gone).check = h.check := rfl
@[simp] theorem Hub.release_dram (h : Hub) (gone : List Index) : (h.release gone).dram = h.dram := rfl

/-! ### `Hub.startLease` -/

@[simp] theorem Hub.startLease_resetLow (h : Hub) (id : LeaseId) (d : Nat) :
    (h.startLease id d).resetLow = h.resetLow := rfl
@[simp] theorem Hub.startLease_now (h : Hub) (id : LeaseId) (d : Nat) : (h.startLease id d).now = h.now := rfl
@[simp] theorem Hub.startLease_channel (h : Hub) (id : LeaseId) (d : Nat) :
    (h.startLease id d).channel = h.channel := rfl
@[simp] theorem Hub.startLease_links (h : Hub) (id : LeaseId) (d : Nat) : (h.startLease id d).links = h.links := rfl
@[simp] theorem Hub.startLease_messages (h : Hub) (id : LeaseId) (d : Nat) :
    (h.startLease id d).messages = h.messages := rfl
@[simp] theorem Hub.startLease_windows (h : Hub) (id : LeaseId) (d : Nat) :
    (h.startLease id d).windows = h.windows := rfl
@[simp] theorem Hub.startLease_table (h : Hub) (id : LeaseId) (d : Nat) : (h.startLease id d).table = h.table := rfl
@[simp] theorem Hub.startLease_scheduler (h : Hub) (id : LeaseId) (d : Nat) :
    (h.startLease id d).scheduler = h.scheduler := rfl
@[simp] theorem Hub.startLease_upkeep (h : Hub) (id : LeaseId) (d : Nat) : (h.startLease id d).upkeep = h.upkeep := rfl
@[simp] theorem Hub.startLease_leases (h : Hub) (id : LeaseId) (d : Nat) :
    (h.startLease id d).leases = { h.leases.onSlot id (fun s =>
      { s with lease := s.lease.map (fun l => { l with phase := .granted (h.hubTime + d) }) }) with
      grants := rise32 h.leases.grants } := rfl
@[simp] theorem Hub.startLease_rest (h : Hub) (id : LeaseId) (d : Nat) : (h.startLease id d).rest = h.rest := rfl
@[simp] theorem Hub.startLease_config (h : Hub) (id : LeaseId) (d : Nat) : (h.startLease id d).config = h.config := rfl
@[simp] theorem Hub.startLease_check (h : Hub) (id : LeaseId) (d : Nat) : (h.startLease id d).check = h.check := rfl
@[simp] theorem Hub.startLease_dram (h : Hub) (id : LeaseId) (d : Nat) : (h.startLease id d).dram = h.dram := rfl

/-! ### `Hub.occupySlot` -/

@[simp] theorem Hub.occupySlot_resetLow (h : Hub) (id : LeaseId) (w : Waiting) :
    (h.occupySlot id w).resetLow = h.resetLow := rfl
@[simp] theorem Hub.occupySlot_now (h : Hub) (id : LeaseId) (w : Waiting) : (h.occupySlot id w).now = h.now := rfl
@[simp] theorem Hub.occupySlot_channel (h : Hub) (id : LeaseId) (w : Waiting) :
    (h.occupySlot id w).channel = h.channel := rfl
@[simp] theorem Hub.occupySlot_links (h : Hub) (id : LeaseId) (w : Waiting) : (h.occupySlot id w).links = h.links := rfl
@[simp] theorem Hub.occupySlot_messages (h : Hub) (id : LeaseId) (w : Waiting) :
    (h.occupySlot id w).messages = h.messages := rfl
@[simp] theorem Hub.occupySlot_windows (h : Hub) (id : LeaseId) (w : Waiting) :
    (h.occupySlot id w).windows = h.windows := rfl
@[simp] theorem Hub.occupySlot_table (h : Hub) (id : LeaseId) (w : Waiting) : (h.occupySlot id w).table = h.table := rfl
@[simp] theorem Hub.occupySlot_scheduler (h : Hub) (id : LeaseId) (w : Waiting) :
    (h.occupySlot id w).scheduler = h.scheduler := rfl
@[simp] theorem Hub.occupySlot_upkeep (h : Hub) (id : LeaseId) (w : Waiting) :
    (h.occupySlot id w).upkeep = h.upkeep := rfl
@[simp] theorem Hub.occupySlot_leases (h : Hub) (id : LeaseId) (w : Waiting) :
    (h.occupySlot id w).leases = h.leases.onSlot id (fun s =>
      { s with
        generation := s.generation + 1
        lease := some ⟨w.port, w.base, w.length, w.mode,
          .granting w.duration w.deadline (drainSet h.table w.port w.mode w.base w.length) w.tag⟩ }) := rfl
@[simp] theorem Hub.occupySlot_rest (h : Hub) (id : LeaseId) (w : Waiting) : (h.occupySlot id w).rest = h.rest := rfl
@[simp] theorem Hub.occupySlot_config (h : Hub) (id : LeaseId) (w : Waiting) :
    (h.occupySlot id w).config = h.config := rfl
@[simp] theorem Hub.occupySlot_check (h : Hub) (id : LeaseId) (w : Waiting) : (h.occupySlot id w).check = h.check := rfl
@[simp] theorem Hub.occupySlot_dram (h : Hub) (id : LeaseId) (w : Waiting) : (h.occupySlot id w).dram = h.dram := rfl

/-! ### `Hub.freeSlots` -/

@[simp] theorem Hub.freeSlots_resetLow (h : Hub) (c : LeaseSlot → Bool) : (h.freeSlots c).resetLow = h.resetLow := rfl
@[simp] theorem Hub.freeSlots_now (h : Hub) (c : LeaseSlot → Bool) : (h.freeSlots c).now = h.now := rfl
@[simp] theorem Hub.freeSlots_channel (h : Hub) (c : LeaseSlot → Bool) : (h.freeSlots c).channel = h.channel := rfl
@[simp] theorem Hub.freeSlots_links (h : Hub) (c : LeaseSlot → Bool) : (h.freeSlots c).links = h.links := rfl
@[simp] theorem Hub.freeSlots_messages (h : Hub) (c : LeaseSlot → Bool) : (h.freeSlots c).messages = h.messages := rfl
@[simp] theorem Hub.freeSlots_windows (h : Hub) (c : LeaseSlot → Bool) : (h.freeSlots c).windows = h.windows := rfl
@[simp] theorem Hub.freeSlots_table (h : Hub) (c : LeaseSlot → Bool) : (h.freeSlots c).table = h.table := rfl
@[simp] theorem Hub.freeSlots_scheduler (h : Hub) (c : LeaseSlot → Bool) :
    (h.freeSlots c).scheduler = h.scheduler := rfl
@[simp] theorem Hub.freeSlots_upkeep (h : Hub) (c : LeaseSlot → Bool) : (h.freeSlots c).upkeep = h.upkeep := rfl
@[simp] theorem Hub.freeSlots_leases (h : Hub) (c : LeaseSlot → Bool) :
    (h.freeSlots c).leases = { h.leases with
      slots := h.leases.slots.map (fun s => if c s then { s with lease := none } else s) } := rfl
@[simp] theorem Hub.freeSlots_rest (h : Hub) (c : LeaseSlot → Bool) : (h.freeSlots c).rest = h.rest := rfl
@[simp] theorem Hub.freeSlots_config (h : Hub) (c : LeaseSlot → Bool) : (h.freeSlots c).config = h.config := rfl
@[simp] theorem Hub.freeSlots_check (h : Hub) (c : LeaseSlot → Bool) : (h.freeSlots c).check = h.check := rfl
@[simp] theorem Hub.freeSlots_dram (h : Hub) (c : LeaseSlot → Bool) : (h.freeSlots c).dram = h.dram := rfl

/-! ### `Hub.recheck` -/

@[simp] theorem Hub.recheck_resetLow (h : Hub) : (h.recheck).resetLow = h.resetLow := rfl
@[simp] theorem Hub.recheck_now (h : Hub) : (h.recheck).now = h.now := rfl
@[simp] theorem Hub.recheck_channel (h : Hub) : (h.recheck).channel = h.channel := rfl
@[simp] theorem Hub.recheck_links (h : Hub) : (h.recheck).links = h.links := rfl
@[simp] theorem Hub.recheck_messages (h : Hub) : (h.recheck).messages = h.messages := rfl
@[simp] theorem Hub.recheck_windows (h : Hub) : (h.recheck).windows = h.windows := rfl
@[simp] theorem Hub.recheck_table (h : Hub) :
    (h.recheck).table = h.table.map (fun e =>
      if e.phase = .held ∧ e.holds.lease = true ∧
          (h.leases.idsWhere (fun l => l.conflictsWith e.port e.kind e.addr e.length)) = [] then
        { e with holds := { e.holds with lease := false } }.promote
      else e) := rfl
@[simp] theorem Hub.recheck_scheduler (h : Hub) : (h.recheck).scheduler = h.scheduler := rfl
@[simp] theorem Hub.recheck_upkeep (h : Hub) : (h.recheck).upkeep = h.upkeep := rfl
@[simp] theorem Hub.recheck_leases (h : Hub) : (h.recheck).leases = h.leases := rfl
@[simp] theorem Hub.recheck_rest (h : Hub) : (h.recheck).rest = h.rest := rfl
@[simp] theorem Hub.recheck_config (h : Hub) : (h.recheck).config = h.config := rfl
@[simp] theorem Hub.recheck_check (h : Hub) : (h.recheck).check = h.check := rfl
@[simp] theorem Hub.recheck_dram (h : Hub) : (h.recheck).dram = h.dram := rfl

/-! ### `Hub.loadTimer` -/

@[simp] theorem Hub.loadTimer_resetLow (h : Hub) : (h.loadTimer).resetLow = h.resetLow := rfl
@[simp] theorem Hub.loadTimer_now (h : Hub) : (h.loadTimer).now = h.now := rfl
@[simp] theorem Hub.loadTimer_channel (h : Hub) : (h.loadTimer).channel = h.channel := rfl
@[simp] theorem Hub.loadTimer_links (h : Hub) : (h.loadTimer).links = h.links := rfl
@[simp] theorem Hub.loadTimer_messages (h : Hub) : (h.loadTimer).messages = h.messages := rfl
@[simp] theorem Hub.loadTimer_windows (h : Hub) : (h.loadTimer).windows = h.windows := rfl
@[simp] theorem Hub.loadTimer_table (h : Hub) : (h.loadTimer).table = h.table := rfl
@[simp] theorem Hub.loadTimer_scheduler (h : Hub) : (h.loadTimer).scheduler = h.scheduler := rfl
@[simp] theorem Hub.loadTimer_upkeep (h : Hub) :
    (h.loadTimer).upkeep = { h.upkeep with timer := some (h.now + h.config.committed.upkeepInterval) } := rfl
@[simp] theorem Hub.loadTimer_leases (h : Hub) : (h.loadTimer).leases = h.leases := rfl
@[simp] theorem Hub.loadTimer_rest (h : Hub) : (h.loadTimer).rest = h.rest := rfl
@[simp] theorem Hub.loadTimer_config (h : Hub) : (h.loadTimer).config = h.config := rfl
@[simp] theorem Hub.loadTimer_check (h : Hub) : (h.loadTimer).check = h.check := rfl
@[simp] theorem Hub.loadTimer_dram (h : Hub) : (h.loadTimer).dram = h.dram := rfl

/-! ### `Hub.markAborting` -/

@[simp] theorem Hub.markAborting_resetLow (h : Hub) (c : Entry → Bool) (k : AbortKind) :
    (h.markAborting c k).resetLow = h.resetLow := rfl
@[simp] theorem Hub.markAborting_now (h : Hub) (c : Entry → Bool) (k : AbortKind) :
    (h.markAborting c k).now = h.now := rfl
@[simp] theorem Hub.markAborting_channel (h : Hub) (c : Entry → Bool) (k : AbortKind) :
    (h.markAborting c k).channel = h.channel := rfl
@[simp] theorem Hub.markAborting_links (h : Hub) (c : Entry → Bool) (k : AbortKind) :
    (h.markAborting c k).links = h.links := rfl
@[simp] theorem Hub.markAborting_messages (h : Hub) (c : Entry → Bool) (k : AbortKind) :
    (h.markAborting c k).messages = h.messages := rfl
@[simp] theorem Hub.markAborting_windows (h : Hub) (c : Entry → Bool) (k : AbortKind) :
    (h.markAborting c k).windows = h.windows := rfl
@[simp] theorem Hub.markAborting_table (h : Hub) (c : Entry → Bool) (k : AbortKind) :
    (h.markAborting c k).table = h.table.map (fun e =>
      if c e && h.burstOf e then { e with aborting := some (k.after e.aborting) } else e) := rfl
@[simp] theorem Hub.markAborting_scheduler (h : Hub) (c : Entry → Bool) (k : AbortKind) :
    (h.markAborting c k).scheduler = h.scheduler := rfl
@[simp] theorem Hub.markAborting_upkeep (h : Hub) (c : Entry → Bool) (k : AbortKind) :
    (h.markAborting c k).upkeep = h.upkeep := rfl
@[simp] theorem Hub.markAborting_leases (h : Hub) (c : Entry → Bool) (k : AbortKind) :
    (h.markAborting c k).leases = h.leases := rfl
@[simp] theorem Hub.markAborting_rest (h : Hub) (c : Entry → Bool) (k : AbortKind) :
    (h.markAborting c k).rest = h.rest := rfl
@[simp] theorem Hub.markAborting_config (h : Hub) (c : Entry → Bool) (k : AbortKind) :
    (h.markAborting c k).config = h.config := rfl
@[simp] theorem Hub.markAborting_check (h : Hub) (c : Entry → Bool) (k : AbortKind) :
    (h.markAborting c k).check = h.check := rfl
@[simp] theorem Hub.markAborting_dram (h : Hub) (c : Entry → Bool) (k : AbortKind) :
    (h.markAborting c k).dram = h.dram := rfl

/-! ### `Hub.onLane` -/

@[simp] theorem Hub.onLane_resetLow (h : Hub) (c : DramCommand) : (h.onLane c).resetLow = h.resetLow := rfl
@[simp] theorem Hub.onLane_now (h : Hub) (c : DramCommand) : (h.onLane c).now = h.now := rfl
@[simp] theorem Hub.onLane_channel (h : Hub) (c : DramCommand) : (h.onLane c).channel = h.channel := rfl
@[simp] theorem Hub.onLane_links (h : Hub) (c : DramCommand) : (h.onLane c).links = h.links := rfl
@[simp] theorem Hub.onLane_messages (h : Hub) (c : DramCommand) : (h.onLane c).messages = h.messages := rfl
@[simp] theorem Hub.onLane_windows (h : Hub) (c : DramCommand) : (h.onLane c).windows = h.windows := rfl
@[simp] theorem Hub.onLane_table (h : Hub) (c : DramCommand) : (h.onLane c).table = h.table := rfl
@[simp] theorem Hub.onLane_scheduler (h : Hub) (c : DramCommand) :
    (h.onLane c).scheduler = { h.scheduler with laneFreeAt := h.now + 1 } := rfl
@[simp] theorem Hub.onLane_upkeep (h : Hub) (c : DramCommand) : (h.onLane c).upkeep = h.upkeep := rfl
@[simp] theorem Hub.onLane_leases (h : Hub) (c : DramCommand) : (h.onLane c).leases = h.leases := rfl
@[simp] theorem Hub.onLane_rest (h : Hub) (c : DramCommand) : (h.onLane c).rest = h.rest := rfl
@[simp] theorem Hub.onLane_config (h : Hub) (c : DramCommand) : (h.onLane c).config = h.config := rfl
@[simp] theorem Hub.onLane_check (h : Hub) (c : DramCommand) : (h.onLane c).check = h.check := rfl
@[simp] theorem Hub.onLane_dram (h : Hub) (c : DramCommand) : (h.onLane c).dram = h.dram.issue c := rfl

/-! ### `Hub.onBank` -/

@[simp] theorem Hub.onBank_resetLow (h : Hub) (b : Nat) (f : Bank → Bank) : (h.onBank b f).resetLow = h.resetLow := rfl
@[simp] theorem Hub.onBank_now (h : Hub) (b : Nat) (f : Bank → Bank) : (h.onBank b f).now = h.now := rfl
@[simp] theorem Hub.onBank_channel (h : Hub) (b : Nat) (f : Bank → Bank) : (h.onBank b f).channel = h.channel := rfl
@[simp] theorem Hub.onBank_links (h : Hub) (b : Nat) (f : Bank → Bank) : (h.onBank b f).links = h.links := rfl
@[simp] theorem Hub.onBank_messages (h : Hub) (b : Nat) (f : Bank → Bank) : (h.onBank b f).messages = h.messages := rfl
@[simp] theorem Hub.onBank_windows (h : Hub) (b : Nat) (f : Bank → Bank) : (h.onBank b f).windows = h.windows := rfl
@[simp] theorem Hub.onBank_table (h : Hub) (b : Nat) (f : Bank → Bank) : (h.onBank b f).table = h.table := rfl
@[simp] theorem Hub.onBank_scheduler (h : Hub) (b : Nat) (f : Bank → Bank) :
    (h.onBank b f).scheduler = { h.scheduler with banks := h.scheduler.banks.modify b f } := rfl
@[simp] theorem Hub.onBank_upkeep (h : Hub) (b : Nat) (f : Bank → Bank) : (h.onBank b f).upkeep = h.upkeep := rfl
@[simp] theorem Hub.onBank_leases (h : Hub) (b : Nat) (f : Bank → Bank) : (h.onBank b f).leases = h.leases := rfl
@[simp] theorem Hub.onBank_rest (h : Hub) (b : Nat) (f : Bank → Bank) : (h.onBank b f).rest = h.rest := rfl
@[simp] theorem Hub.onBank_config (h : Hub) (b : Nat) (f : Bank → Bank) : (h.onBank b f).config = h.config := rfl
@[simp] theorem Hub.onBank_check (h : Hub) (b : Nat) (f : Bank → Bank) : (h.onBank b f).check = h.check := rfl
@[simp] theorem Hub.onBank_dram (h : Hub) (b : Nat) (f : Bank → Bank) : (h.onBank b f).dram = h.dram := rfl

/-! ### `Hub.served` -/

@[simp] theorem Hub.served_resetLow (h : Hub) (b : Nat) : (h.served b).resetLow = h.resetLow := rfl
@[simp] theorem Hub.served_now (h : Hub) (b : Nat) : (h.served b).now = h.now := rfl
@[simp] theorem Hub.served_channel (h : Hub) (b : Nat) : (h.served b).channel = h.channel := rfl
@[simp] theorem Hub.served_links (h : Hub) (b : Nat) : (h.served b).links = h.links := rfl
@[simp] theorem Hub.served_messages (h : Hub) (b : Nat) : (h.served b).messages = h.messages := rfl
@[simp] theorem Hub.served_windows (h : Hub) (b : Nat) : (h.served b).windows = h.windows := rfl
@[simp] theorem Hub.served_table (h : Hub) (b : Nat) : (h.served b).table = h.table := rfl
@[simp] theorem Hub.served_scheduler (h : Hub) (b : Nat) :
    (h.served b).scheduler = { h.scheduler with lastServed := b } := rfl
@[simp] theorem Hub.served_upkeep (h : Hub) (b : Nat) : (h.served b).upkeep = h.upkeep := rfl
@[simp] theorem Hub.served_leases (h : Hub) (b : Nat) : (h.served b).leases = h.leases := rfl
@[simp] theorem Hub.served_rest (h : Hub) (b : Nat) : (h.served b).rest = h.rest := rfl
@[simp] theorem Hub.served_config (h : Hub) (b : Nat) : (h.served b).config = h.config := rfl
@[simp] theorem Hub.served_check (h : Hub) (b : Nat) : (h.served b).check = h.check := rfl
@[simp] theorem Hub.served_dram (h : Hub) (b : Nat) : (h.served b).dram = h.dram := rfl

/-! ### `Link.heard` -/

@[simp] theorem Link.heard_state (l : Link) : (l.heard).state = l.state := rfl
@[simp] theorem Link.heard_step (l : Link) : (l.heard).step = l.step := rfl
@[simp] theorem Link.heard_farReady (l : Link) : (l.heard).farReady = l.farReady := rfl
@[simp] theorem Link.heard_readySent (l : Link) : (l.heard).readySent = l.readySent := rfl
@[simp] theorem Link.heard_trainingTimer (l : Link) : (l.heard).trainingTimer = l.trainingTimer := rfl
@[simp] theorem Link.heard_expected (l : Link) : (l.heard).expected = l.expected := rfl
@[simp] theorem Link.heard_corrupt (l : Link) : (l.heard).corrupt = 0 := rfl
@[simp] theorem Link.heard_nakMark (l : Link) : (l.heard).nakMark = l.nakMark := rfl
@[simp] theorem Link.heard_ackOwed (l : Link) : (l.heard).ackOwed = l.ackOwed := rfl
@[simp] theorem Link.heard_inbound (l : Link) : (l.heard).inbound = l.inbound := rfl
@[simp] theorem Link.heard_sendSeq (l : Link) : (l.heard).sendSeq = l.sendSeq := rfl
@[simp] theorem Link.heard_farRoom (l : Link) : (l.heard).farRoom = l.farRoom := rfl
@[simp] theorem Link.heard_replay (l : Link) : (l.heard).replay = l.replay := rfl
@[simp] theorem Link.heard_resend (l : Link) : (l.heard).resend = l.resend := rfl
@[simp] theorem Link.heard_fullWait (l : Link) : (l.heard).fullWait = l.fullWait := rfl
@[simp] theorem Link.heard_replayTimer (l : Link) : (l.heard).replayTimer = l.replayTimer := rfl
@[simp] theorem Link.heard_roomTimer (l : Link) : (l.heard).roomTimer = l.roomTimer := rfl
@[simp] theorem Link.heard_replays (l : Link) : (l.heard).replays = l.replays := rfl
@[simp] theorem Link.heard_outbound (l : Link) : (l.heard).outbound = l.outbound := rfl
@[simp] theorem Link.heard_receiver (l : Link) : (l.heard).receiver = l.receiver := rfl
@[simp] theorem Link.heard_wire (l : Link) : (l.heard).wire = l.wire := rfl

/-! ### `Link.send` -/

@[simp] theorem Link.send_state (l : Link) (x : FrameBody) : (l.send x).state = l.state := rfl
@[simp] theorem Link.send_step (l : Link) (x : FrameBody) : (l.send x).step = l.step := rfl
@[simp] theorem Link.send_farReady (l : Link) (x : FrameBody) : (l.send x).farReady = l.farReady := rfl
@[simp] theorem Link.send_readySent (l : Link) (x : FrameBody) : (l.send x).readySent = l.readySent := rfl
@[simp] theorem Link.send_trainingTimer (l : Link) (x : FrameBody) : (l.send x).trainingTimer = l.trainingTimer := rfl
@[simp] theorem Link.send_expected (l : Link) (x : FrameBody) : (l.send x).expected = l.expected := rfl
@[simp] theorem Link.send_corrupt (l : Link) (x : FrameBody) : (l.send x).corrupt = l.corrupt := rfl
@[simp] theorem Link.send_nakMark (l : Link) (x : FrameBody) : (l.send x).nakMark = l.nakMark := rfl
@[simp] theorem Link.send_ackOwed (l : Link) (x : FrameBody) : (l.send x).ackOwed = l.ackOwed := rfl
@[simp] theorem Link.send_inbound (l : Link) (x : FrameBody) : (l.send x).inbound = l.inbound := rfl
@[simp] theorem Link.send_sendSeq (l : Link) (x : FrameBody) : (l.send x).sendSeq = l.sendSeq := rfl
@[simp] theorem Link.send_farRoom (l : Link) (x : FrameBody) : (l.send x).farRoom = l.farRoom := rfl
@[simp] theorem Link.send_replay (l : Link) (x : FrameBody) : (l.send x).replay = l.replay := rfl
@[simp] theorem Link.send_resend (l : Link) (x : FrameBody) : (l.send x).resend = l.resend := rfl
@[simp] theorem Link.send_fullWait (l : Link) (x : FrameBody) : (l.send x).fullWait = l.fullWait := rfl
@[simp] theorem Link.send_replayTimer (l : Link) (x : FrameBody) : (l.send x).replayTimer = l.replayTimer := rfl
@[simp] theorem Link.send_roomTimer (l : Link) (x : FrameBody) : (l.send x).roomTimer = l.roomTimer := rfl
@[simp] theorem Link.send_replays (l : Link) (x : FrameBody) : (l.send x).replays = l.replays := rfl
@[simp] theorem Link.send_outbound (l : Link) (x : FrameBody) : (l.send x).outbound = l.outbound := rfl
@[simp] theorem Link.send_receiver (l : Link) (x : FrameBody) : (l.send x).receiver = l.receiver := rfl
@[simp] theorem Link.send_wire (l : Link) (x : FrameBody) : (l.send x).wire = l.wire ++ [x.bytes] := rfl

/-! ### `Link.nak` -/

@[simp] theorem Link.nak_state (l : Link) (r : NakReason) : (l.nak r).state = l.state := rfl
@[simp] theorem Link.nak_step (l : Link) (r : NakReason) : (l.nak r).step = l.step := rfl
@[simp] theorem Link.nak_farReady (l : Link) (r : NakReason) : (l.nak r).farReady = l.farReady := rfl
@[simp] theorem Link.nak_readySent (l : Link) (r : NakReason) : (l.nak r).readySent = l.readySent := rfl
@[simp] theorem Link.nak_trainingTimer (l : Link) (r : NakReason) : (l.nak r).trainingTimer = l.trainingTimer := rfl
@[simp] theorem Link.nak_expected (l : Link) (r : NakReason) : (l.nak r).expected = l.expected := rfl
@[simp] theorem Link.nak_corrupt (l : Link) (r : NakReason) : (l.nak r).corrupt = l.corrupt := rfl
@[simp] theorem Link.nak_nakMark (l : Link) (r : NakReason) : (l.nak r).nakMark = true := rfl
@[simp] theorem Link.nak_ackOwed (l : Link) (r : NakReason) : (l.nak r).ackOwed = l.ackOwed := rfl
@[simp] theorem Link.nak_inbound (l : Link) (r : NakReason) : (l.nak r).inbound = l.inbound := rfl
@[simp] theorem Link.nak_sendSeq (l : Link) (r : NakReason) : (l.nak r).sendSeq = l.sendSeq := rfl
@[simp] theorem Link.nak_farRoom (l : Link) (r : NakReason) : (l.nak r).farRoom = l.farRoom := rfl
@[simp] theorem Link.nak_replay (l : Link) (r : NakReason) : (l.nak r).replay = l.replay := rfl
@[simp] theorem Link.nak_resend (l : Link) (r : NakReason) : (l.nak r).resend = l.resend := rfl
@[simp] theorem Link.nak_fullWait (l : Link) (r : NakReason) : (l.nak r).fullWait = l.fullWait := rfl
@[simp] theorem Link.nak_replayTimer (l : Link) (r : NakReason) : (l.nak r).replayTimer = l.replayTimer := rfl
@[simp] theorem Link.nak_roomTimer (l : Link) (r : NakReason) : (l.nak r).roomTimer = l.roomTimer := rfl
@[simp] theorem Link.nak_replays (l : Link) (r : NakReason) : (l.nak r).replays = l.replays := rfl
@[simp] theorem Link.nak_outbound (l : Link) (r : NakReason) : (l.nak r).outbound = l.outbound := rfl
@[simp] theorem Link.nak_receiver (l : Link) (r : NakReason) : (l.nak r).receiver = l.receiver := rfl
@[simp] theorem Link.nak_wire (l : Link) (r : NakReason) :
    (l.nak r).wire = l.wire ++ [(FrameBody.nak l.expected r).bytes] := rfl

/-! ### `Link.oweAck` -/

@[simp] theorem Link.oweAck_state (l : Link) (now : Nat) : (l.oweAck now).state = l.state := rfl
@[simp] theorem Link.oweAck_step (l : Link) (now : Nat) : (l.oweAck now).step = l.step := rfl
@[simp] theorem Link.oweAck_farReady (l : Link) (now : Nat) : (l.oweAck now).farReady = l.farReady := rfl
@[simp] theorem Link.oweAck_readySent (l : Link) (now : Nat) : (l.oweAck now).readySent = l.readySent := rfl
@[simp] theorem Link.oweAck_trainingTimer (l : Link) (now : Nat) : (l.oweAck now).trainingTimer = l.trainingTimer := rfl
@[simp] theorem Link.oweAck_expected (l : Link) (now : Nat) : (l.oweAck now).expected = l.expected := rfl
@[simp] theorem Link.oweAck_corrupt (l : Link) (now : Nat) : (l.oweAck now).corrupt = l.corrupt := rfl
@[simp] theorem Link.oweAck_nakMark (l : Link) (now : Nat) : (l.oweAck now).nakMark = l.nakMark := rfl
@[simp] theorem Link.oweAck_ackOwed (l : Link) (now : Nat) :
    (l.oweAck now).ackOwed = match l.ackOwed with
      | some t => some t
      | none => some (now + ackDelay) := rfl
@[simp] theorem Link.oweAck_inbound (l : Link) (now : Nat) : (l.oweAck now).inbound = l.inbound := rfl
@[simp] theorem Link.oweAck_sendSeq (l : Link) (now : Nat) : (l.oweAck now).sendSeq = l.sendSeq := rfl
@[simp] theorem Link.oweAck_farRoom (l : Link) (now : Nat) : (l.oweAck now).farRoom = l.farRoom := rfl
@[simp] theorem Link.oweAck_replay (l : Link) (now : Nat) : (l.oweAck now).replay = l.replay := rfl
@[simp] theorem Link.oweAck_resend (l : Link) (now : Nat) : (l.oweAck now).resend = l.resend := rfl
@[simp] theorem Link.oweAck_fullWait (l : Link) (now : Nat) : (l.oweAck now).fullWait = l.fullWait := rfl
@[simp] theorem Link.oweAck_replayTimer (l : Link) (now : Nat) : (l.oweAck now).replayTimer = l.replayTimer := rfl
@[simp] theorem Link.oweAck_roomTimer (l : Link) (now : Nat) : (l.oweAck now).roomTimer = l.roomTimer := rfl
@[simp] theorem Link.oweAck_replays (l : Link) (now : Nat) : (l.oweAck now).replays = l.replays := rfl
@[simp] theorem Link.oweAck_outbound (l : Link) (now : Nat) : (l.oweAck now).outbound = l.outbound := rfl
@[simp] theorem Link.oweAck_receiver (l : Link) (now : Nat) : (l.oweAck now).receiver = l.receiver := rfl
@[simp] theorem Link.oweAck_wire (l : Link) (now : Nat) : (l.oweAck now).wire = l.wire := rfl

/-! ### `Link.beginTraining` -/

@[simp] theorem Link.beginTraining_state (l : Link) (now : Nat) : (l.beginTraining now).state = .training := rfl
@[simp] theorem Link.beginTraining_step (l : Link) (now : Nat) : (l.beginTraining now).step = some .align := rfl
@[simp] theorem Link.beginTraining_farReady (l : Link) (now : Nat) : (l.beginTraining now).farReady = false := rfl
@[simp] theorem Link.beginTraining_readySent (l : Link) (now : Nat) : (l.beginTraining now).readySent = false := rfl
@[simp] theorem Link.beginTraining_trainingTimer (l : Link) (now : Nat) :
    (l.beginTraining now).trainingTimer = some (now + trainingTime) := rfl
@[simp] theorem Link.beginTraining_expected (l : Link) (now : Nat) : (l.beginTraining now).expected = l.expected := rfl
@[simp] theorem Link.beginTraining_corrupt (l : Link) (now : Nat) : (l.beginTraining now).corrupt = l.corrupt := rfl
@[simp] theorem Link.beginTraining_nakMark (l : Link) (now : Nat) : (l.beginTraining now).nakMark = l.nakMark := rfl
@[simp] theorem Link.beginTraining_ackOwed (l : Link) (now : Nat) : (l.beginTraining now).ackOwed = l.ackOwed := rfl
@[simp] theorem Link.beginTraining_inbound (l : Link) (now : Nat) : (l.beginTraining now).inbound = l.inbound := rfl
@[simp] theorem Link.beginTraining_sendSeq (l : Link) (now : Nat) : (l.beginTraining now).sendSeq = l.sendSeq := rfl
@[simp] theorem Link.beginTraining_farRoom (l : Link) (now : Nat) : (l.beginTraining now).farRoom = l.farRoom := rfl
@[simp] theorem Link.beginTraining_replay (l : Link) (now : Nat) : (l.beginTraining now).replay = l.replay := rfl
@[simp] theorem Link.beginTraining_resend (l : Link) (now : Nat) : (l.beginTraining now).resend = l.resend := rfl
@[simp] theorem Link.beginTraining_fullWait (l : Link) (now : Nat) : (l.beginTraining now).fullWait = l.fullWait := rfl
@[simp] theorem Link.beginTraining_replayTimer (l : Link) (now : Nat) :
    (l.beginTraining now).replayTimer = l.replayTimer := rfl
@[simp] theorem Link.beginTraining_roomTimer (l : Link) (now : Nat) :
    (l.beginTraining now).roomTimer = l.roomTimer := rfl
@[simp] theorem Link.beginTraining_replays (l : Link) (now : Nat) : (l.beginTraining now).replays = l.replays := rfl
@[simp] theorem Link.beginTraining_outbound (l : Link) (now : Nat) : (l.beginTraining now).outbound = l.outbound := rfl
@[simp] theorem Link.beginTraining_receiver (l : Link) (now : Nat) : (l.beginTraining now).receiver = l.receiver := rfl
@[simp] theorem Link.beginTraining_wire (l : Link) (now : Nat) : (l.beginTraining now).wire = l.wire := rfl

/-! ### A port's link and message layer after an update of one port's -/

@[simp] theorem Hub.onLink_link (h : Hub) (p r : Port) (f : Link → Link) :
    (h.onLink p f).link r = if r = p then f (h.link p) else h.link r := by simp [Hub.link]

@[simp] theorem Hub.onLink_layer (h : Hub) (p r : Port) (f : Link → Link) : (h.onLink p f).layer r = h.layer r := rfl

@[simp] theorem Hub.onMessages_link (h : Hub) (p r : Port) (f : MessageLayer → MessageLayer) :
    (h.onMessages p f).link r = h.link r := rfl

@[simp] theorem Hub.onMessages_layer (h : Hub) (p r : Port) (f : MessageLayer → MessageLayer) :
    (h.onMessages p f).layer r = if r = p then f (h.layer p) else h.layer r := by simp [Hub.layer]

@[simp] theorem Hub.notifyUp_link (h : Hub) (k : NoticeKind) (d : Nat) (p : Port) : (h.notifyUp k d).link p = h.link p := rfl

@[simp] theorem Hub.notifyUp_layer (h : Hub) (k : NoticeKind) (d : Nat) (p : Port) :
    (h.notifyUp k d).layer p =
      if (h.link p).state = .up then (h.layer p).give k d none else h.layer p := by
  fin_cases p <;> rfl

/-! ### The queue -/

@[simp] theorem State.pending_with_hub (s : State) (h : Hub) : ({ s with hub := h } : State).pending = s.pending := rfl
@[simp] theorem State.hub_with_pending (s : State) (q : List Instr) : ({ s with pending := q } : State).hub = s.hub := rfl

end Sys2Proof.Machine
end

