-- ==== Sys2Proof/Laws/Ops.lean ====
section
/-! SUPPORT. One lemma for each shared operation, saying once what it can do; later proofs cite these instead of unfolding
the operations. -/

namespace Sys2Proof.Machine

/-! ### Running a command -/

/-- While the reset line is low a command changes nothing. -/
theorem perform_in_reset (s : State) (f : Hub → Option Hub) (h : s.hub.resetLow = true) : s.perform f = .next s := by
  simp [State.perform, h]

/-- A command that the hub takes: its effect, and what ends every event. -/
theorem perform_takes (s : State) (f : Hub → Option Hub) (g : Hub) (h : s.hub.resetLow = false) (e : f s.hub = some g) :
    s.perform f = .next { s with hub := g.settle } := by
  simp [State.perform, h, e]

/-- A command that the hub does not take in its present state changes nothing. -/
theorem perform_skips (s : State) (f : Hub → Option Hub) (e : f s.hub = none) : s.perform f = .next s := by
  unfold State.perform
  split
  · rfl
  · rw [e]

/-- All that a command run by `State.perform` can answer. -/
theorem perform_cases {s t : State} {f : Hub → Option Hub} (h : s.perform f = .next t) :
    t = s ∨ ∃ g, s.hub.resetLow = false ∧ f s.hub = some g ∧ t = { s with hub := g.settle } := by
  unfold State.perform at h
  split at h
  · cases h; exact .inl rfl
  · rename_i hr
    split at h
    · rename_i g hg
      cases h
      exact .inr ⟨g, by simpa using hr, hg, rfl⟩
    · cases h; exact .inl rfl

/-- A command run by `State.perform` always answers a next state. -/
theorem perform_completes (s : State) (f : Hub → Option Hub) : ∃ t, s.perform f = .next t := by
  unfold State.perform
  split
  · exact ⟨_, rfl⟩
  · split <;> exact ⟨_, rfl⟩

/-- All that a column command can answer as a next state. -/
theorem column_cases {s t : State} {i : Index} {kind : Access} (h : s.column i kind = .next t) :
    t = s ∨ ∃ e, s.hub.resetLow = false ∧ s.hub.grant = some e ∧ e.index = i ∧ e.kind = kind ∧
      e.burstAddr + e.burstWords * 8 ≤ s.hub.config.committed.memorySize ∧
      t = { s with hub := (s.hub.startBurst e).settle } := by
  unfold State.column at h
  split at h
  · cases h; exact .inl rfl
  · rename_i hr
    split at h
    · rename_i e he
      split at h
      · rename_i hk
        split at h
        · cases h
        · rename_i hm
          cases h
          exact .inr ⟨e, by simpa using hr, he, hk.1, hk.2, by omega, rfl⟩
      · cases h; exact .inl rfl
    · cases h; exact .inl rfl

/-- A step is the front command's, or the passing of one period. -/
theorem step_cases {s t : State} (h : step s = .next t) :
    (s.pending = [] ∧ t = { s with hub := s.hub.tick }) ∨
      ∃ c rest, s.pending = c :: rest ∧ exec c { s with pending := rest } = .next t := by
  unfold step at h
  split at h
  · rename_i hp
    cases h; exact .inl ⟨hp, rfl⟩
  · rename_i c rest hp
    exact .inr ⟨c, rest, hp, h⟩

/-! ### Taking a message -/

/-- No notice kind is first exactly in the empty set. -/
theorem first_none_iff (n : NoticeSet) : n.first = none ↔ n = NoticeSet.empty := by
  cases n with
  | mk a b c d =>
    cases a <;> cases b <;> cases c <;> cases d <;>
      simp [NoticeSet.first, NoticeSet.get, NoticeSet.empty, List.find?]

/-- What taking the head of an inbound list gives. -/
theorem take_head_eq (h : Hub) (p : Port) (m : List Byte) (rest : List (List Byte))
    (h1 : (h.link p).outbound.length < 16) (h2 : (h.layer p).replies = []) (h3 : (h.layer p).notices = NoticeSet.empty)
    (h4 : (h.link p).inbound = m :: rest) : h.takeHead p = some (m, h.afterTaking p rest) := by
  have hf : (h.layer p).notices.first = none := (first_none_iff _).2 h3
  have ht : h.mayTake p = true := by simp [Hub.mayTake, h1, h2, hf]
  simp [Hub.takeHead, ht, h4]

/-- All that taking the head of an inbound list can give. -/
theorem take_head_cases {h g : Hub} {p : Port} {m : List Byte} (e : h.takeHead p = some (m, g)) :
    ∃ rest, h.mayTake p = true ∧ (h.link p).inbound = m :: rest ∧ g = h.afterTaking p rest := by
  unfold Hub.takeHead at e
  split at e
  · rename_i hm
    split at e
    · cases e
    · rename_i m' rest hi
      cases e
      exact ⟨rest, hm, hi, rfl⟩
  · cases e

/-- What taking a request gives. -/
theorem take_request_eq (h : Hub) (p : Port) (m : List Byte) (rest : List (List Byte))
    (h1 : (h.link p).outbound.length < 16) (h2 : (h.layer p).replies = []) (h3 : (h.layer p).notices = NoticeSet.empty)
    (h4 : (h.link p).inbound = m :: rest) :
    h.takeRequest p = (parseRequest m).map (fun r => (r, h.afterTaking p rest)) := by
  simp [Hub.takeRequest, take_head_eq h p m rest h1 h2 h3 h4]

/-- All that taking a request can give. -/
theorem take_request_cases {h g : Hub} {p : Port} {r : Request} (e : h.takeRequest p = some (r, g)) :
    ∃ m rest, h.mayTake p = true ∧ (h.link p).inbound = m :: rest ∧ parseRequest m = some r ∧ g = h.afterTaking p rest := by
  unfold Hub.takeRequest at e
  split at e
  · rename_i m g' ht
    obtain ⟨rest, h1, h2, rfl⟩ := take_head_cases ht
    simp only [Option.map_eq_some_iff] at e
    obtain ⟨r', h3, h4⟩ := e
    cases h4
    exact ⟨m, rest, h1, h2, h3, rfl⟩
  · cases e

/-! ### Answers -/

/-- An immediate answer places its reply, and counts a refusal. -/
theorem answer_eq (h : Hub) (p : Port) (r : Reply) :
    h.answer p r = if r.status.refuses then
      (h.place p (.reply r)).onMessages p (fun m => { m with refusals := rise32 m.refusals })
      else h.place p (.reply r) := rfl

/-- An OK places its reply and does nothing else. -/
@[simp] theorem accept_eq (h : Hub) (p : Port) (tag : Byte) : h.accept p tag = h.place p (.reply ⟨tag, .ok, 0, []⟩) := rfl

/-- An answer touches the link and the message layer of its port alone. -/
theorem answer_frame (h : Hub) (p : Port) (r : Reply) :
    ∃ ls ms, h.answer p r = { h with links := ls, messages := ms } ∧ (∀ q, q ≠ p → ls.get q = h.link q) ∧
      (∀ q, q ≠ p → ms.get q = h.layer q) ∧
      ls.get p = { h.link p with outbound := (h.link p).outbound ++ [.reply r] } ∧
      ∃ n, ms.get p = { h.layer p with refusals := n } := by
  rw [answer_eq]
  split
  · refine ⟨_, _, rfl, ?_, ?_, ?_, ?_⟩
    · intro q hq; simp [Hub.link, hq]
    · intro q hq; simp [Hub.layer, hq]
    · simp [Hub.link]
    · exact ⟨_, by simp [Hub.layer]; rfl⟩
  · refine ⟨_, _, rfl, ?_, ?_, ?_, ?_⟩
    · intro q hq; simp [Hub.link, hq]
    · intro q hq; rfl
    · simp [Hub.link]
    · exact ⟨(h.layer p).refusals, rfl⟩

/-! ### Entries -/

/-- All that a promotion does. -/
theorem promote_cases (e : Entry) :
    (e.phase = .held ∧ e.holds.isEmpty = true ∧ e.promote = { e with phase := .queued }) ∨
      (¬ (e.phase = .held ∧ e.holds.isEmpty = true) ∧ e.promote = e) := by
  unfold Entry.promote
  by_cases h : e.phase = .held ∧ e.holds.isEmpty = true
  · rw [if_pos h]; exact .inl ⟨h.1, h.2, rfl⟩
  · rw [if_neg h]; exact .inr ⟨h, rfl⟩

/-- A promotion moves at most the phase. -/
theorem promote_frame (e : Entry) : ∃ x, e.promote = { e with phase := x } := by
  rcases promote_cases e with ⟨_, _, h⟩ | ⟨_, h⟩
  · exact ⟨_, h⟩
  · exact ⟨e.phase, h⟩

@[simp] theorem promote_index (e : Entry) : e.promote.index = e.index := by
  obtain ⟨x, h⟩ := promote_frame e; rw [h]
@[simp] theorem promote_port (e : Entry) : e.promote.port = e.port := by obtain ⟨x, h⟩ := promote_frame e; rw [h]
@[simp] theorem promote_tag (e : Entry) : e.promote.tag = e.tag := by obtain ⟨x, h⟩ := promote_frame e; rw [h]
@[simp] theorem promote_kind (e : Entry) : e.promote.kind = e.kind := by obtain ⟨x, h⟩ := promote_frame e; rw [h]
@[simp] theorem promote_addr (e : Entry) : e.promote.addr = e.addr := by obtain ⟨x, h⟩ := promote_frame e; rw [h]
@[simp] theorem promote_words (e : Entry) : e.promote.words = e.words := by obtain ⟨x, h⟩ := promote_frame e; rw [h]
@[simp] theorem promote_holds (e : Entry) : e.promote.holds = e.holds := by obtain ⟨x, h⟩ := promote_frame e; rw [h]
@[simp] theorem promote_aborting (e : Entry) : e.promote.aborting = e.aborting := by
  obtain ⟨x, h⟩ := promote_frame e; rw [h]

/-- A promotion keeps an entry unfinished, or finished. -/
@[simp] theorem promote_unfinished (e : Entry) : e.promote.unfinished = e.unfinished := by
  rcases promote_cases e with ⟨h1, _, h⟩ | ⟨_, h⟩
  · rw [h]
    simp [Entry.unfinished, h1]
  · rw [h]

/-- A promotion moves no entry into ACTIVE or out of it. -/
theorem promote_active (e : Entry) : e.promote.phase = .active ↔ e.phase = .active := by
  rcases promote_cases e with ⟨h1, _, h⟩ | ⟨_, h⟩
  · simp [h, h1]
  · rw [h]

/-- Working the orders out again moves the ORDER and the phase of entries alone. -/
theorem reorder_index (gone : List Index) (ahead l : List Entry) :
    (reorder gone ahead l).map Entry.index = l.map Entry.index := by
  induction l generalizing ahead with
  | nil => rfl
  | cons e rest ih =>
    simp only [reorder, List.map_cons, ih]
    congr 1
    split
    · split <;> simp
    · rfl

/-- Each entry after the orders have been worked out again is one that stood before, but for its ORDER and its phase. -/
theorem reorder_mem (gone : List Index) (ahead l : List Entry) :
    ∀ x ∈ reorder gone ahead l, ∃ e ∈ l, x = e ∨
      ∃ o, x = { e with holds := { e.holds with order := o } }.promote := by
  induction l generalizing ahead with
  | nil => simp [reorder]
  | cons e rest ih =>
    intro x hx
    simp only [reorder, List.mem_cons] at hx
    rcases hx with rfl | hx
    · refine ⟨e, by simp, ?_⟩
      split
      · split
        · exact .inr ⟨_, rfl⟩
        · exact .inl rfl
      · exact .inl rfl
    · obtain ⟨e', h1, h2⟩ := ih _ x hx
      exact ⟨e', List.mem_cons_of_mem _ h1, h2⟩

/-- An update of one entry keeps the indices, when it keeps that entry's. -/
theorem update_entry_index (t : List Entry) (i : Index) (f : Entry → Entry) (h : ∀ e, e.index = i → (f e).index = i) :
    (updateEntry t i f).map Entry.index = t.map Entry.index := by
  simp only [updateEntry, List.map_map]
  apply List.map_congr_left
  intro e _
  by_cases he : e.index = i
  · simp [he, h e he]
  · simp [he]

/-! ### Leases -/

/-- A grant touches the leases and the message layers alone. -/
theorem grant_if_drained_frame (h : Hub) (id : LeaseId) :
    ∃ u ms, h.grantIfDrained id = { h with leases := u, messages := ms } := by
  unfold Hub.grantIfDrained
  split
  · exact ⟨_, _, rfl⟩
  · exact ⟨h.leases, h.messages, rfl⟩

/-- The grants of several slots do too. -/
theorem grants_frame (h : Hub) (ids : List LeaseId) :
    ∃ u ms, ids.foldl Hub.grantIfDrained h = { h with leases := u, messages := ms } := by
  induction ids generalizing h with
  | nil => exact ⟨h.leases, h.messages, rfl⟩
  | cons i ids ih =>
    obtain ⟨u, ms, e⟩ := grant_if_drained_frame h i
    obtain ⟨u2, ms2, e2⟩ := ih (h.grantIfDrained i)
    exact ⟨u2, ms2, by rw [List.foldl_cons, e2, e]⟩

theorem grant_drained_frame (h : Hub) : ∃ u ms, h.grantDrained = { h with leases := u, messages := ms } :=
  grants_frame h _

/-- The wait-list scan touches the leases and the message layers alone. -/
theorem scan_from_frame (h : Hub) (kept ws : List Waiting) :
    ∃ u ms, h.scanFrom kept ws = { h with leases := u, messages := ms } := by
  induction ws generalizing h kept with
  | nil => exact ⟨_, h.messages, rfl⟩
  | cons w ws ih =>
    unfold Hub.scanFrom
    split
    · rename_i id _
      split
      · obtain ⟨u, ms, e⟩ := grant_if_drained_frame (h.occupySlot id w) id
        obtain ⟨u2, ms2, e2⟩ := ih ((h.occupySlot id w).grantIfDrained id) kept
        exact ⟨u2, ms2, by rw [e2, e]; rfl⟩
      · exact ih h _
    · exact ih h _

theorem scan_waits_frame (h : Hub) : ∃ u ms, h.scanWaits = { h with leases := u, messages := ms } := scan_from_frame h _ _

/-- A lease that leaves touches the leases, the message layers and the table alone. -/
theorem lease_leaves_frame (h : Hub) (id : LeaseId) :
    ∃ u ms t, h.leaseLeaves id = { h with leases := u, messages := ms, table := t } := by
  obtain ⟨u, ms, e⟩ := scan_waits_frame ((h.freeSlots (fun s => s.id == id)).recheck)
  exact ⟨u, ms, _, by rw [Hub.leaseLeaves, e]; rfl⟩

/-- A lapse touches the message layer of the owner and the lapses count alone. -/
theorem lapse_frame (h : Hub) (s : LeaseSlot) :
    ∃ u ms, h.lapse s = { h with leases := u, messages := ms } ∧ u.slots = h.leases.slots ∧ u.waits = h.leases.waits := by
  unfold Hub.lapse
  split
  · exact ⟨_, _, rfl, rfl, rfl⟩
  · exact ⟨h.leases, h.messages, rfl, rfl, rfl⟩

/-! ### Freeing entries and aborts -/

/-- Entries that leave touch the table, the banks' opened-for indices, the leases' drain sets and the message layers
alone. -/
theorem remove_entries_frame (h : Hub) (gone : List Index) :
    ∃ t b u ms, h.removeEntries gone =
      { h with table := t, scheduler := { h.scheduler with banks := b }, leases := u, messages := ms } :=
  ⟨_, _, _, _, rfl⟩

/-- The entries left are those not named, but for their ORDER and phase. -/
theorem remove_entries_table (h : Hub) (gone : List Index) :
    (h.removeEntries gone).table = reorder gone [] (h.table.filter (fun e => !gone.contains e.index)) := rfl

theorem free_entries_frame (h : Hub) (gone : List Index) :
    ∃ t b u ms, h.freeEntries gone =
      { h with table := t, scheduler := { h.scheduler with banks := b }, leases := u, messages := ms } := by
  obtain ⟨u, ms, e⟩ := grant_drained_frame (h.removeEntries gone)
  exact ⟨_, _, u, ms, by rw [Hub.freeEntries, e]; rfl⟩

/-- Answers to aborted entries touch the message layers alone. -/
theorem answer_aborts_frame (h : Hub) (es : List Entry) : ∃ ms, h.answerAborts es = { h with messages := ms } := by
  have fold : ∀ (l : List Entry) (g : Hub), ∃ ms, l.foldl (fun h e =>
      if e.aborting = some .torn then h else h.onMessages e.port (fun m => m.answerAborted e.tag e.wordsDone)) g =
        { g with messages := ms } := by
    intro l
    induction l with
    | nil => intro g; exact ⟨g.messages, rfl⟩
    | cons e l ih =>
      intro g
      simp only [List.foldl_cons]
      split
      · exact ih g
      · obtain ⟨ms, h2⟩ := ih (g.onMessages e.port (fun m => m.answerAborted e.tag e.wordsDone))
        exact ⟨ms, by rw [h2]; rfl⟩
  obtain ⟨ms, h2⟩ := fold es h
  exact ⟨_, by rw [Hub.answerAborts, h2]⟩

/-! ### The line coding -/

/-- A symbol that makes no frame event, and more symbols after it. -/
theorem hear_step {r t : Receiver} {x : LineSymbol} (e : r.next x = (none, t)) {rest : List LineSymbol} (ne : rest ≠ []) :
    r.hear (x :: rest) = t.hear rest := by
  cases rest with
  | nil => exact absurd rfl ne
  | cons y rest => simp [Receiver.hear, e]

/-- A symbol that makes a frame event, and none after it. -/
theorem hear_last {r t : Receiver} {x : LineSymbol} {f : LineFrame} (e : r.next x = (some f, t)) :
    r.hear [x] = some (f, t) := by simp [Receiver.hear, e]

/-- All that hearing a frame event can give: symbols without one, and the symbol that makes it. -/
theorem hear_cases {r t : Receiver} {line : List LineSymbol} {f : LineFrame} (e : r.hear line = some (f, t)) :
    (∃ x, line = [x] ∧ r.next x = (some f, t)) ∨
      ∃ x y rest u, line = x :: y :: rest ∧ r.next x = (none, u) ∧ u.hear (y :: rest) = some (f, t) := by
  match line with
  | [] => simp [Receiver.hear] at e
  | [x] =>
    refine .inl ⟨x, rfl, ?_⟩
    unfold Receiver.hear at e
    split at e
    · rename_i hx
      cases e
      exact hx
    · cases e
  | x :: y :: rest =>
    unfold Receiver.hear at e
    split at e
    · cases e
    · rename_i u hx
      exact .inr ⟨x, y, rest, u, rfl, hx, e⟩

/-- All that a port's hearing of a frame event can give: its receiving side alone has moved. -/
theorem hub_hear_cases {h g : Hub} {p : Port} {line : List LineSymbol} {f : LineFrame} (e : h.hear p line = some (f, g)) :
    ∃ r, (h.link p).receiver.hear line = some (f, r) ∧ g = h.onLink p (fun l => { l with receiver := r }) := by
  simp only [Hub.hear, Option.map_eq_some_iff] at e
  obtain ⟨⟨f', r⟩, h1, h2⟩ := e
  cases h2
  exact ⟨r, h1, rfl⟩

/-- All that a port's hearing of a good frame can give. -/
theorem hear_good_cases {h g : Hub} {p : Port} {line : List LineSymbol} {b : FrameBody}
    (e : h.hearGood p line = some (b, g)) :
    ∃ frame r, (h.link p).receiver.hear line = some (.delimited frame, r) ∧ parseFrame frame = some b ∧
      g = h.onLink p (fun l => { l with receiver := r }) := by
  unfold Hub.hearGood at e
  split at e
  · rename_i f g' he
    obtain ⟨r, h1, rfl⟩ := hub_hear_cases he
    simp only [Option.map_eq_some_iff] at e
    obtain ⟨b', h2, h3⟩ := e
    cases h3
    cases f with
    | delimited frame => exact ⟨frame, r, h1, h2, rfl⟩
    | cutShort => cases h2
    | stray => cases h2
    | overlong => cases h2
  · cases e

/-- What hearing a good frame gives. -/
theorem hear_good_eq {h : Hub} {p : Port} {line : List LineSymbol} {frame : List Byte} {r : Receiver} {b : FrameBody}
    (h1 : (h.link p).receiver.hear line = some (.delimited frame, r)) (h2 : parseFrame frame = some b) :
    h.hearGood p line = some (b, h.onLink p (fun l => { l with receiver := r })) := by
  simp [Hub.hearGood, Hub.hear, h1, lineFrameBody, h2]

/-! ### Asking for the memory -/

/-- Asking for the memory touches the channel, the upkeep unit and the rest unit alone. -/
theorem want_memory_frame (h : Hub) (p : Port) :
    ∃ c r u, h.wantMemory p = { h with channel := c, rest := r, upkeep := u } ∧
      r.votes = h.rest.votes.set p false ∧ r.wakes = h.rest.wakes ∧ r.items = h.rest.items := by
  unfold Hub.wantMemory
  simp only []
  split
  · exact ⟨_, _, _, rfl, rfl, rfl, rfl⟩
  · exact ⟨h.channel, _, h.upkeep, rfl, rfl, rfl, rfl⟩

@[simp] theorem answers_wake_serving : answersWake .serving = true := rfl
@[simp] theorem answers_wake_unready : answersWake .unready = true := rfl
@[simp] theorem answers_wake_bringup : answersWake .bringup = true := rfl
@[simp] theorem answers_wake_entering : answersWake .entering = false := rfl
@[simp] theorem answers_wake_resting : answersWake .resting = false := rfl
@[simp] theorem answers_wake_leaving : answersWake .leaving = false := rfl

/-! ### The end of every event -/

/-- The answers to the deferred WAKEs touch the message layers alone. -/
theorem deferred_wakes_frame (h : Hub) (ws : List (Port × Byte)) :
    ∃ ms, ws.foldl (fun h w => h.defer w.1 (.wake w.2)) h = { h with messages := ms } := by
  induction ws generalizing h with
  | nil => exact ⟨h.messages, rfl⟩
  | cons w ws ih =>
    obtain ⟨ms, e⟩ := ih (h.defer w.1 (.wake w.2))
    exact ⟨ms, by rw [List.foldl_cons, e]; rfl⟩

/-- Every change of the channel to SERVING touches the channel, the table, the rest unit and the message layers alone. -/
theorem become_serving_frame (h : Hub) :
    ∃ ms t, h.becomeServing =
      { h with
        messages := ms
        table := t
        channel := .serving
        rest := { h.rest with abandoning := false, leaving := none, wakes := [] } } ∧
      t.map Entry.index = h.table.map Entry.index := by
  obtain ⟨ms, e⟩ := deferred_wakes_frame h h.rest.wakes
  refine ⟨ms, h.table.map (fun e => { e with holds := { e.holds with channel := false } }.promote), ?_, ?_⟩
  · unfold Hub.becomeServing
    rw [e]
  · simp [List.map_map, Function.comp_def]

/-- The rest unit's evaluation touches the channel, the table, the rest unit and the message layers alone. -/
theorem evaluate_rest_frame (h : Hub) :
    ∃ c ms t r, h.evaluateRest = { h with channel := c, messages := ms, table := t, rest := r } ∧
      t.map Entry.index = h.table.map Entry.index ∧ r.votes = h.rest.votes ∧ r.items = h.rest.items := by
  have entry : ∀ g : Hub, ∃ c, g.evaluateEntry = { g with channel := c } := by
    intro g
    unfold Hub.evaluateEntry
    split
    · exact ⟨_, rfl⟩
    · exact ⟨g.channel, rfl⟩
  unfold Hub.evaluateRest
  split
  · simp only []
    split
    · obtain ⟨ms, t, e, ht⟩ := become_serving_frame
        { h with rest := { h.rest with abandoning := h.rest.abandoning || !h.restWanted } }
      obtain ⟨c, e2⟩ := entry (Hub.becomeServing
        { h with rest := { h.rest with abandoning := h.rest.abandoning || !h.restWanted } })
      refine ⟨c, ms, t, { h.rest with abandoning := false, leaving := none, wakes := [] }, ?_, ht, rfl, rfl⟩
      rw [e2, e]
    · exact ⟨h.channel, h.messages, h.table, { h.rest with abandoning := h.rest.abandoning || !h.restWanted }, rfl, rfl,
        rfl, rfl⟩
  · obtain ⟨c, e⟩ := entry h
    exact ⟨c, h.messages, h.table, h.rest, by rw [e], rfl, rfl, rfl⟩

/-- Presenting items touches the items and the banks' close requested flags alone. -/
theorem present_frame (h : Hub) :
    ∃ (a b c d : Items) (f : Bank → Bool), h.present =
      { h with
        upkeep := { h.upkeep with items := a }
        rest := { h.rest with items := b }
        config := { h.config with items := c, bringupItems := d }
        scheduler := { h.scheduler with banks := h.scheduler.banks.map (fun k => { k with closeRequested := f k }) } } := by
  let stands := h.upkeepItems.closeAll || h.restItems.closeAll || h.bringupItems.closeAll
  let fresh := (h.upkeepItems.closeAll && !h.upkeep.items.closeAll) || (h.restItems.closeAll && !h.rest.items.closeAll) ||
    (h.bringupItems.closeAll && !h.config.bringupItems.closeAll)
  refine ⟨h.upkeepItems, h.restItems, h.configItems, h.bringupItems, fun (k : Bank) =>
    if fresh then (if k.state = .opening ∨ k.state = .opened then true else k.closeRequested)
    else if !stands && h.closeAll then false else k.closeRequested, ?_⟩
  unfold Hub.present
  simp only []
  congr 2
  apply List.map_congr_left
  intro k _
  simp only [stands, fresh]
  split_ifs <;> rfl

/-- The end of an event touches the channel, the table, the rest unit, the message layers, the items, the banks' close
requested flags and the room timers alone. -/
theorem settle_frame (h : Hub) :
    ∃ (c : Channel) (ms : Quad MessageLayer) (t : List Entry) (r : RestUnit) (a i j : Items) (f : Bank → Bool), h.settle =
      { h with
        channel := c
        messages := ms
        table := t
        rest := r
        upkeep := { h.upkeep with items := a }
        config := { h.config with items := i, bringupItems := j }
        scheduler := { h.scheduler with banks := h.scheduler.banks.map (fun k => { k with closeRequested := f k }) }
        links := h.links.map (fun l => l.roomTimed h.now) } ∧
      t.map Entry.index = h.table.map Entry.index ∧ r.votes = h.rest.votes := by
  obtain ⟨c, ms, t, r, e, ht, hv, _⟩ := evaluate_rest_frame h
  obtain ⟨a, b, i, j, f, e2⟩ := present_frame h.evaluateRest
  refine ⟨c, ms, t, { r with items := b }, a, i, j, f, ?_, ht, hv⟩
  unfold Hub.settle
  rw [e2, e]

/-- A room timer moves nothing else of its link. -/
theorem room_timed_frame (l : Link) (now : Nat) : ∃ t, l.roomTimed now = { l with roomTimer := t } := by
  unfold Link.roomTimed
  split <;> exact ⟨_, rfl⟩

@[simp] theorem settle_dram (h : Hub) : h.settle.dram = h.dram := by
  obtain ⟨c, ms, t, r, a, i, j, f, e, _⟩ := settle_frame h; rw [e]
@[simp] theorem settle_windows (h : Hub) : h.settle.windows = h.windows := by
  obtain ⟨c, ms, t, r, a, i, j, f, e, _⟩ := settle_frame h; rw [e]
@[simp] theorem settle_leases (h : Hub) : h.settle.leases = h.leases := by
  obtain ⟨c, ms, t, r, a, i, j, f, e, _⟩ := settle_frame h; rw [e]
@[simp] theorem settle_check (h : Hub) : h.settle.check = h.check := by
  obtain ⟨c, ms, t, r, a, i, j, f, e, _⟩ := settle_frame h; rw [e]
@[simp] theorem settle_now (h : Hub) : h.settle.now = h.now := by
  obtain ⟨c, ms, t, r, a, i, j, f, e, _⟩ := settle_frame h; rw [e]
@[simp] theorem settle_resetLow (h : Hub) : h.settle.resetLow = h.resetLow := by
  obtain ⟨c, ms, t, r, a, i, j, f, e, _⟩ := settle_frame h; rw [e]
@[simp] theorem settle_burst (h : Hub) : h.settle.scheduler.burst = h.scheduler.burst := by
  obtain ⟨c, ms, t, r, a, i, j, f, e, _⟩ := settle_frame h; rw [e]
@[simp] theorem settle_flight (h : Hub) : h.settle.scheduler.flight = h.scheduler.flight := by
  obtain ⟨c, ms, t, r, a, i, j, f, e, _⟩ := settle_frame h; rw [e]
@[simp] theorem settle_committed (h : Hub) : h.settle.config.committed = h.config.committed := by
  obtain ⟨c, ms, t, r, a, i, j, f, e, _⟩ := settle_frame h; rw [e]
@[simp] theorem settle_staged (h : Hub) : h.settle.config.staged = h.config.staged := by
  obtain ⟨c, ms, t, r, a, i, j, f, e, _⟩ := settle_frame h; rw [e]
@[simp] theorem settle_holder (h : Hub) : h.settle.config.holder = h.config.holder := by
  obtain ⟨c, ms, t, r, a, i, j, f, e, _⟩ := settle_frame h; rw [e]
@[simp] theorem settle_change (h : Hub) : h.settle.config.change = h.config.change := by
  obtain ⟨c, ms, t, r, a, i, j, f, e, _⟩ := settle_frame h; rw [e]
@[simp] theorem settle_bringup (h : Hub) : h.settle.config.bringup = h.config.bringup := by
  obtain ⟨c, ms, t, r, a, i, j, f, e, _⟩ := settle_frame h; rw [e]
@[simp] theorem settle_index (h : Hub) : h.settle.table.map Entry.index = h.table.map Entry.index := by
  obtain ⟨c, ms, t, r, a, i, j, f, e, ht, _⟩ := settle_frame h; rw [e]; exact ht

end Sys2Proof.Machine
end

