-- ==== Sys2Proof/Laws/Safety.lean ====
section
/-! SUPPORT. Lemmas about the terms of Safety.lean: the tables of checks, what a taking gives, and what an event that takes
effect answers. -/

namespace Sys2Proof.Safety

open Sys2Proof.Machine

/-- The first condition of a table, or the rest of it. -/
@[simp] theorem first_that_holds_cons (b : Bool) (r : Status × Nat) (rest : List (Bool × Status × Nat)) :
    firstThatHolds ((b, r) :: rest) = if b = true then some r else firstThatHolds rest := by
  cases b <;> rfl

@[simp] theorem first_that_holds_nil : firstThatHolds [] = none := rfl

/-- A table followed by another. -/
theorem first_that_holds_append (a b : List (Bool × Status × Nat)) :
    firstThatHolds (a ++ b) = (firstThatHolds a).or (firstThatHolds b) := by
  induction a with
  | nil => simp
  | cons x a ih =>
    obtain ⟨c, r⟩ := x
    rw [List.cons_append, first_that_holds_cons, first_that_holds_cons, ih]
    split <;> simp

/-- An effect on a hub that is out of reset. -/
theorem perform_after {s : State} {f : Hub → Option Hub} {g : Hub} (r : Running s) (e : f s.hub = some g) :
    s.perform f = after s g := perform_takes s f g r e

/-- What a taking gives when the message is a request. -/
theorem taking_request {s : State} {p : Port} {m : List Byte} {rest : List (List Byte)} (t : Taking s p m rest)
    {r : Request} (h : parseRequest m = some r) : s.hub.takeRequest p = some (r, s.hub.afterTaking p rest) := by
  rw [take_request_eq _ _ _ _ t.place t.noReply t.noNotice t.head, h]
  rfl

/-- What a taking gives, whatever the message is. -/
theorem taking_head {s : State} {p : Port} {m : List Byte} {rest : List (List Byte)} (t : Taking s p m rest) :
    s.hub.takeHead p = some (m, s.hub.afterTaking p rest) :=
  take_head_eq _ _ _ _ t.place t.noReply t.noNotice t.head

/-- What a port takes when it hears a good frame. -/
theorem hears_good {s : State} {p : Port} {line : List LineSymbol} {frame : List Byte} {r : Receiver} {b : FrameBody}
    (h : Hears s p line (.delimited frame) r) (e : parseFrame frame = some b) :
    s.hub.hearGood p line = some (b, s.hub.onLink p (fun l => { l with receiver := r })) := hear_good_eq h e

/-- A taking moves only the messages-taken count of the port's message layer. -/
@[simp] theorem after_taking_layer (h : Hub) (p q : Port) (rest : List (List Byte)) :
    (h.afterTaking p rest).layer q =
      if q = p then { h.layer p with taken := rise32 (h.layer p).taken } else h.layer q := by simp [Hub.layer]

@[simp] theorem after_taking_tag (h : Hub) (p : Port) (rest : List (List Byte)) (t : Byte) :
    (h.afterTaking p rest).tagInUse p t = (h.layer p).tags.contains t := by simp [Hub.tagInUse]

/-- No slot's lease meets a condition. -/
@[simp] theorem ids_where_empty (h : Hub) (c : Lease → Bool) :
    (h.leases.idsWhere c).isEmpty = !someLease h c := by
  unfold LeaseUnit.idsWhere someLease
  induction h.leases.slots with
  | nil => rfl
  | cons x xs ih =>
    cases hl : x.lease with
    | none => simpa [hl] using ih
    | some l =>
      cases hc : c l
      · simpa [hl, hc] using ih
      · simp [hl, hc]

/-- The entry condition but for the channel, port by port (R105). -/
theorem rest_wanted_iff (h : Hub) : h.restWanted = true ↔
    (∀ p, (h.link p).state = .up → h.rest.votes.get p = true) ∧ h.table = [] ∧ h.config.change = none := by
  simp [Hub.restWanted, Hub.allVoted, Quad.toList, Quad.zip, Hub.link, and_assoc, Fin.forall_fin_succ, Quad.get]
  tauto

/-- A request of another port that stands in the way on the wait list (R89). -/
theorem overlaps_waiting_iff (ws : List Waiting) (port : Port) (base length : Nat) :
    overlapsWaiting ws port base length = true ↔
      ∃ v ∈ ws, v.port ≠ port ∧ rangesOverlap v.base v.length base length = true := by simp [overlapsWaiting]

end Sys2Proof.Safety
end

