-- ==== Sys2Proof/WellFormed.lean ====
section
/-! DEFINITION. Which commands are well formed: the operands spell the event that the command's row names. Ports,
banks, entry indices and lease ids are in range by their types. The symbols of a received frame must give, from a place
where a frame event leaves the receiving side, a good frame of the row's type, or a corrupt one for CORRUPT_FRAME (R169,
R181), and a read burst has at most 8 words (R34). -/

namespace Sys2Proof

/-- Some frame event that the symbols can be is a good frame of a kind. -/
def hearsGood (line : List LineSymbol) (kind : Machine.FrameBody → Bool) : Bool :=
  (Machine.lineFrames line).any (fun f => match Machine.lineFrameBody f with
    | some b => kind b
    | none => false)

/-- The operands of the command spell its row's event. -/
def Instr.wf : Instr → Bool
  | .messageFrameReceived _ line => hearsGood line (fun f => match f with | .message _ _ => true | _ => false)
  | .ackReceived _ line => hearsGood line (fun f => match f with | .ack _ _ => true | _ => false)
  | .nakReceived _ line => hearsGood line (fun f => match f with | .nak _ _ => true | _ => false)
  | .alignReceived _ line => hearsGood line (fun f => match f with | .align => true | _ => false)
  | .readyReceived _ line => hearsGood line (fun f => match f with | .ready _ => true | _ => false)
  | .corruptFrame _ line => (Machine.lineFrames line).any Machine.lineCorrupt
  | .colReadComplete flips => decide (flips.length ≤ 8)
  | .read _ | .write _ | .fence _ | .leaseTake _ | .leaseDrop _ | .leaseRenew _ | .rest _ | .wake _ | .query _
  | .configSet _ | .configCommit _ | .windowSet _ | .handover _ | .claim _ | .hubReset _ | .malformedMessage _
  | .placeReply _ | .placeNotice _ | .trainingTimerExpiry _ | .alignSent _ | .readySent _ | .ackSent _
  | .messageFrameSent _ | .frameResent _ | .replayTimerExpiry _ | .roomTimerExpiry _ | .resetLineAsserted
  | .resetLineReleased | .rowOpen _ | .rowClose _ | .bankOpened _ | .bankClosed _ | .openMarkPassed _
  | .writeRecoveryMarkPassed _ | .colRead _ | .colWrite _ | .colWriteComplete | .allClose | .allCloseComplete
  | .modeLoad | .modeLoadComplete | .upkeep | .upkeepComplete | .retainEnter | .retainExit | .retainExitComplete
  | .intervalTimerExpiry | .leaseExpiry _ | .waitDeadline _ _ | .settleEnd | .commitCopy | .resetEvent => true

end Sys2Proof
end

