-- ==== Sys2Proof/Tests/Slice0.lean ====
section
/-! SUPPORT. Tests of single events, with expected values worked out by hand from the rules that each names, and for
every statement with hypotheses a concrete state and operands that meet them (`witness_…`). -/

namespace Sys2Proof.Tests

open Sys2Proof.Machine Sys2Proof.Safety

-- One theorem is checked at a time: many evaluations at once would take a stack each.
set_option Elab.async false

/-! ### Builders -/

/-- A link that is UP with nothing in progress, and far-end room 4. -/
def upLink : Link := { Link.down with state := .up, farRoom := 4 }

/-- A hub in SERVING with every link UP, P0 holding the control role, and the interval timer due at 1560. -/
def serving : Hub :=
  { Hub.powerUp 0 with
    channel := .serving
    links := Quad.all upLink
    upkeep := { UpkeepUnit.powerUp with timer := some 1560 }
    config := { ConfigUnit.powerUp with holder := some 0 } }

/-- A hub with an empty queue. -/
def idle (h : Hub) : State := ⟨h, []⟩

/-- The hub with message `m` alone on the inbound list of port `p`. -/
def asked (h : Hub) (p : Port) (m : List Byte) : State := idle (h.onLink p (fun l => { l with inbound := [m] }))

/-- The hub after a command. -/
def run (c : Instr) (s : State) : Hub := match exec c s with
  | .next t => t.hub
  | .fault _ => s.hub
  | .refused _ => s.hub

/-- The bytes of a READ of `words` words from `addr` (R154). -/
def readMsg (tag words : Byte) (addr : Nat) : List Byte := [0x10, tag, words, 0] ++ leBytes 4 addr

/-- The bytes of a WRITE of zero words (R154). -/
def writeMsg (tag words : Byte) (addr : Nat) : List Byte :=
  [0x11, tag, words, 0] ++ leBytes 4 addr ++ List.replicate (8 * words.toNat) 0

/-- The bytes of a LEASE_TAKE (R154). -/
def leaseMsg (tag mode flags : Byte) (addr length duration limit : Nat) : List Byte :=
  [0x20, tag, mode, flags] ++ leBytes 4 addr ++ leBytes 4 length ++ leBytes 2 duration ++ leBytes 2 limit

/-- The bytes of a WINDOW_SET (R154). -/
def windowMsg (tag port window enable rights : Byte) (base size target : Nat) : List Byte :=
  [0x52, tag, port, window, enable, rights, 0, 0] ++ leBytes 4 base ++ leBytes 4 size ++ leBytes 4 target

/-- A READ of one word at address 0 by P0, QUEUED. -/
def aRead : Entry where
  index := 0
  port := 0
  tag := 1
  kind := .read
  addr := 0
  words := 1
  wordsDone := 0
  bank := 0
  row := 0
  phase := .queued
  holds := Holds.none
  passed := 0
  aborting := none
  status := .ok
  flagged := 0
  buffer := []

/-- A WRITE of one word at address 0 by P0, QUEUED. -/
def aWrite : Entry := { aRead with kind := .write, buffer := [0x0102030405060708] }

/-- An OPEN bank with row `r`, its marks passed. -/
def openBank (r : Nat) : Bank := { Bank.closedRecord with state := .opened, row := some r }

/-- The scheduler with bank 0 as given. -/
def withBank (h : Hub) (k : Bank) : Hub := { h with scheduler := { h.scheduler with banks := h.scheduler.banks.set 0 k } }

/-- The lease table with a lease in slot 0, its generation 1. -/
def withLease (h : Hub) (l : Lease) : Hub :=
  { h with leases := { h.leases with slots := h.leases.slots.set 0 ⟨0, 1, some l⟩ } }

/-- A SOLE lease of P1 on the first segment, granted until 50 ms. -/
def aLease : Lease := ⟨1, 0, 256, .sole, .granted 50⟩

/-- The symbols of a frame that a second start mark cuts short after one byte (R181). -/
def cutShort : List LineSymbol := [.startMark, .data 3, .startMark]

/-- The status and detail of the replies on an outbound list. -/
def replies (h : Hub) (p : Port) : List (Byte × Status × Nat) := (h.link p).outbound.filterMap (fun m => match m with
  | .reply r => some (r.tag, r.status, r.detail)
  | .notice _ _ => none)

/-! ### Well-formed commands: each check refuses an ill-formed term -/

theorem test_wf_message : (Instr.messageFrameReceived 0 (lineOf (FrameBody.message 0 [0x12, 1, 0, 0]).bytes)).wf = true := by decide +kernel
theorem test_wf_message_refuses_ack : (Instr.messageFrameReceived 0 (lineOf (FrameBody.ack 0 4).bytes)).wf = false := by decide +kernel
theorem test_wf_message_refuses_two_frames :
    (Instr.messageFrameReceived 0 ((lineOf (FrameBody.message 0 [1, 1]).bytes) ++ (lineOf (FrameBody.message 1 [1, 1]).bytes))).wf = false := by
  decide +kernel
theorem test_wf_ack_refuses_room_5 : (Instr.ackReceived 0 (lineOf (FrameBody.ack 0 5).bytes)).wf = false := by decide +kernel
theorem test_wf_nak_refuses_reason_4 : (Instr.nakReceived 0 (lineOf (frameBytes 3 0 [0, 4]))).wf = false := by decide +kernel
theorem test_wf_align_refuses_payload : (Instr.alignReceived 0 (lineOf (frameBytes 4 0 [0]))).wf = false := by decide +kernel
theorem test_wf_ready_refuses_align : (Instr.readyReceived 0 (lineOf FrameBody.align.bytes)).wf = false := by decide +kernel
theorem test_wf_corrupt_refuses_good : (Instr.corruptFrame 0 (lineOf FrameBody.align.bytes)).wf = false := by decide +kernel
theorem test_wf_corrupt_refuses_silence : (Instr.corruptFrame 0 [.idle, .startMark, .data 4]).wf = false := by decide +kernel
theorem test_wf_corrupt_bad_crc : (Instr.corruptFrame 0 (lineOf [4, 0, 0, 0, 0, 0])).wf = true := by decide +kernel
theorem test_wf_corrupt_cut_short : (Instr.corruptFrame 0 cutShort).wf = true := by decide +kernel
theorem test_wf_read_burst_refuses_nine : (Instr.colReadComplete (List.replicate 9 0)).wf = false := by decide +kernel

/-! ### Words of the spec: frames, the CRC, the address map -/

/-- The check value by which the CRC of R153 (generator 0x1021, register 0xFFFF at the start, nothing reflected) is known
outside the spec: the bytes 0x31 to 0x39 give 0x29B1. -/
theorem test_crc : crc16 [0x31, 0x32, 0x33, 0x34, 0x35, 0x36, 0x37, 0x38, 0x39] = 0x29B1#16 := by decide +kernel

/-- R29: physical address 0x0A5B3C48 at the defaults. -/
theorem test_address_map :
    Params.default.bankOf 0x0A5B3C48 = 4 ∧ Params.default.rowOf 0x0A5B3C48 = 10604 ∧
      Params.default.columnOf 0x0A5B3C48 = 233 := by decide +kernel

/-- R154: the request bytes of each kind, written out, read as the request they stand for. -/
theorem test_request_bytes :
    parseRequest [0x10, 7, 2, 0, 0x48, 0x3C, 0x5B, 0x0A] = some (.read 7 2 0 0x0A5B3C48) ∧
    parseRequest [0x11, 7, 1, 0, 8, 0, 0, 0, 8, 7, 6, 5, 4, 3, 2, 1] = some (.write 7 1 0 8 [0x0102030405060708]) ∧
    parseRequest [0x12, 7, 0, 0] = some (.fence 7 0) ∧
    parseRequest [0x20, 7, 1, 1, 0, 1, 0, 0, 0, 2, 0, 0, 0x2C, 1, 5, 0] =
      some (.leaseTake 7 1 1 0x100 0x200 300 5) ∧
    parseRequest [0x21, 7, 3, 9, 0, 0, 0, 0] = some (.leaseDrop 7 3 9 0) ∧
    parseRequest [0x22, 7, 3, 9, 0x2C, 1, 0, 0] = some (.leaseRenew 7 3 9 300 0) ∧
    parseRequest [0x40, 7, 1, 3] = some (.query 7 1 3) ∧
    parseRequest [0x50, 7, 0, 0, 3, 0, 0, 4] = some (.configSet 7 0 [⟨3, 0, 1024⟩]) ∧
    parseRequest [0x51, 7, 1, 0] = some (.configCommit 7 1 0) ∧
    parseRequest (windowMsg 7 1 2 1 3 0x100 0x200 0x300) = some (.windowSet 7 1 2 1 3 0 0x100 0x200 0x300) ∧
    parseRequest [0x53, 7, 2, 0] = some (.handover 7 2 0) := by decide +kernel

/-- R156: a payload of one byte, an unknown kind and a length that does not match spell no request. -/
theorem test_no_request : parseRequest [0x10] = none ∧ parseRequest [0x13, 7, 0, 0] = none ∧
    parseRequest [0x12, 7, 0] = none ∧ parseRequest [0x11, 7, 0, 0, 0, 0, 0, 0] = none := by decide +kernel

/-! ### What the builders meet -/

/-- A hub with no reply, no notice and no message outstanding at `p` takes the message it is asked. -/
theorem taking_asked (h : Hub) (p : Port) (m : List Byte) (r : h.resetLow = false) (o : (h.link p).outbound = [])
    (a : (h.layer p).replies = []) (n : (h.layer p).notices = NoticeSet.empty) : Taking (asked h p m) p m [] where
  running := r
  place := by simp [asked, idle, Hub.link, Hub.onLink] at o ⊢; simp [o]
  noReply := a
  noNotice := n
  head := by simp [asked, idle, Hub.link, Hub.onLink]

/-- The power-up windows enable window 0 alone, over the whole memory. -/
theorem enabled_power_up {h : Hub} (e : h.windows = Quad.all Window.powerUp) {p w : Port} {r : Window} :
    Enabled h p w r ↔ w = 0 ∧ r = ⟨0, 0x10000000, 0, true, true⟩ := by
  unfold Enabled
  rw [e]
  fin_cases p <;> fin_cases w <;> simp [Quad.all, Quad.get, Window.powerUp, eq_comm]

/-- The power-up windows lie apart. -/
theorem windows_apart {h : Hub} (e : h.windows = Quad.all Window.powerUp) : WindowsApart h := by
  intro p v w r q ne a b
  exact absurd ((enabled_power_up e).1 a).1 (by rw [((enabled_power_up e).1 b).1] at ne; exact ne)

/-- Through the power-up windows a physical address equals the port address. -/
theorem translates (h : Hub) (e : h.windows = Quad.all Window.powerUp) (p : Port) (addr length : Nat) :
    TranslatesTo h p addr length addr := by
  intro w r a _ _
  rw [((enabled_power_up e).1 a).2]
  simp

/-! ### READ and WRITE -/

/-- The hypotheses of `ReadAndWriteAreDecidedByR5AndAdmittedByR7` for a READ or WRITE that is refused. -/
def Refused (h : Hub) (p : Port) (kind : Access) (m : List Byte) (tag : Byte) (words reserved addr : Nat) (data : List Word)
    (status : Status) (detail : Nat) : Prop :=
  Taking (asked h p m) p m [] ∧
    parseRequest m = some (match kind with
      | .read => .read tag words reserved addr
      | .write => .write tag words reserved addr data) ∧
    WindowsApart (asked h p m).hub ∧ TranslatesTo (asked h p m).hub p addr (words * 8) addr ∧
    ((∃ i, ∀ e ∈ h.table, e.index ≠ i) ∨ h.config.committed.quota.get p ≤ h.occupied p) ∧
    firstThatHolds (admissionTable (asked h p m).hub p kind tag words reserved addr addr) = some (status, detail)

/-- Eight entries of P0: its QUOTA (R4). -/
def eightEntries : List Entry := [0, 1, 2, 3, 4, 5, 6, 7].map (fun i => { aRead with index := i, tag := 100 })

/-- R5: a witness for each condition, the range and the words at the ends of what they allow. -/
theorem witness_read_and_write_refused :
    Refused serving 0 .read (readMsg 7 33 0) 7 33 0 0 [] .malformed 0 ∧
    Refused serving 0 .read (readMsg 7 0 0) 7 0 0 0 [] .malformed 0 ∧
    Refused (serving.addTag 0 7) 0 .read (readMsg 7 32 0) 7 32 0 0 [] .tagInUse 0 ∧
    Refused { serving with channel := .unready } 0 .read (readMsg 7 32 0) 7 32 0 0 [] .notReady 0 ∧
    Refused serving 0 .read (readMsg 7 1 0x10000000) 7 1 0 0x10000000 [] .noWindow 0 ∧
    Refused serving 0 .read (readMsg 7 2 0xF8) 7 2 0 0xF8 [] .span 0 ∧
    Refused { serving with table := eightEntries } 0 .read (readMsg 7 1 0) 7 1 0 0 [] .full 8 ∧
    Refused (withLease serving { aLease with owner := 0, mode := .guarded }) 0 .write (writeMsg 7 1 0xF8) 7 1 0 0xF8 [0]
      .locked 0 := by
  refine ⟨?_, ?_, ?_, ?_, ?_, ?_, ?_, ?_⟩ <;>
    exact ⟨taking_asked _ _ _ rfl rfl rfl rfl, by decide +kernel, windows_apart rfl, translates _ rfl _ _ _,
      by decide +kernel, by decide +kernel⟩

/-- The hypotheses of the same statement for a READ or WRITE that is admitted to entry 0. -/
def Admitted (h : Hub) (p : Port) (kind : Access) (m : List Byte) (tag : Byte) (words addr : Nat) (data : List Word) : Prop :=
  Taking (asked h p m) p m [] ∧
    parseRequest m = some (match kind with
      | .read => .read tag words 0 addr
      | .write => .write tag words 0 addr data) ∧
    WindowsApart (asked h p m).hub ∧ Enabled (asked h p m).hub p 0 ⟨0, 0x10000000, 0, true, true⟩ ∧
    0 ≤ addr ∧ addr + words * 8 ≤ 0 + 0x10000000 ∧ addr = 0 + (addr - 0) ∧
    (∀ e ∈ h.table, e.index ≠ (0 : Index)) ∧ (∀ j < (0 : Index), ∃ e ∈ h.table, e.index = j) ∧
    firstThatHolds (admissionTable (asked h p m).hub p kind tag words 0 addr addr) = none

theorem witness_read_and_write_admitted :
    Admitted serving 0 .read (readMsg 7 32 0x0FFFFF00) 7 32 0x0FFFFF00 [] ∧
    Admitted serving 3 .write (writeMsg 7 1 0) 7 1 0 [0] ∧
    Admitted (withLease serving aLease) 0 .read (readMsg 7 1 0) 7 1 0 [] := by
  refine ⟨?_, ?_, ?_⟩ <;>
    exact ⟨taking_asked _ _ _ rfl rfl rfl rfl, by decide +kernel, windows_apart rfl, (enabled_power_up rfl).2 ⟨rfl, rfl⟩,
      by decide, by decide, by decide, by decide +kernel, by decide +kernel, by decide +kernel⟩

/-- R2, R7, R12: a READ of 2 words at 0x48 takes entry 0 and is QUEUED; its segment is in bank 0, row 0. -/
theorem test_read_is_queued :
    (run (.read 0) (asked serving 0 (readMsg 7 2 0x48))).table =
      [{ aRead with tag := 7, addr := 0x48, words := 2 }] := by decide +kernel

/-- R10: a READ of a segment that another port holds SOLE is HELD by LEASE. -/
theorem test_read_is_held :
    (run (.read 0) (asked (withLease serving aLease) 0 (readMsg 7 1 0))).table.map (fun e => (e.phase, e.holds.lease)) =
      [(.held, true)] := by decide +kernel

/-- R5, R6: the same with CONFLICT_ACTION REJECT is LOCKED, the detail the id of the lease. -/
theorem test_write_is_locked :
    (let h := withLease serving aLease
     let c := { h.config.committed with conflictAction := Quad.all .reject }
     replies (run (.write 0) (asked { h with config := { h.config with committed := c } } 0 (writeMsg 7 1 0))) 0) =
      [(7, .locked, 0)] := by decide +kernel

/-- R9: a WRITE behind an unfinished READ of its word has ORDER on it; R145: its data are in its buffer. -/
theorem test_write_follows_read :
    ((run (.write 0) (asked { serving with table := [aRead] } 0 (writeMsg 7 1 0))).table.drop 1).map
      (fun e => (e.index, e.phase, e.holds.order, e.buffer)) = [(1, .held, some 0, [0])] := by decide +kernel

/-! ### FENCE -/

/-- R18: a watch set of an unfinished READ of the port, the three refusals, and the fence answered at once. -/
theorem witness_fence :
    (let m : List Byte := [0x12, 7, 0, 0]
     let checks (h : Hub) (reserved : Nat) := firstThatHolds [(reserved != 0, Status.malformed, 0),
       ((h.layer 0).tags.contains 7, .tagInUse, 0), (decide (4 ≤ (h.layer 0).fences.length), .full, 0)]
     let four := serving.onMessages 0 (fun l => { l with fences := [⟨1, [0]⟩, ⟨2, [0]⟩, ⟨3, [0]⟩, ⟨4, [0]⟩] })
     (Taking (asked serving 0 m) 0 m [] ∧ parseRequest m = some (.fence 7 0) ∧ checks serving 0 = none) ∧
     (Taking (asked serving 0 [0x12, 7, 1, 0]) 0 [0x12, 7, 1, 0] [] ∧
       parseRequest [0x12, 7, 1, 0] = some (.fence 7 1) ∧ checks serving 1 = some (.malformed, 0)) ∧
     (Taking (asked (serving.addTag 0 7) 0 m) 0 m [] ∧ parseRequest m = some (.fence 7 0) ∧
       checks (serving.addTag 0 7) 0 = some (.tagInUse, 0)) ∧
     (Taking (asked four 0 m) 0 m [] ∧ parseRequest m = some (.fence 7 0) ∧ checks four 0 = some (.full, 0))) := by
  refine ⟨?_, ?_, ?_, ?_⟩ <;> exact ⟨taking_asked _ _ _ rfl rfl rfl rfl, by decide +kernel, by decide +kernel⟩

/-- R18: nothing to watch, so the fence is answered OK at once and its tag stays free. -/
theorem test_fence_at_once :
    (let h := run (.fence 0) (asked serving 0 [0x12, 7, 0, 0])
     (replies h 0, (h.layer 0).tags)) = ([(7, .ok, 0)], []) := by decide +kernel

/-- R18: the fence watches the READ of its port and not that of another. -/
theorem test_fence_watches :
    ((run (.fence 0) (asked { serving with table := [aRead, { aRead with index := 1, port := 2 }] } 0 [0x12, 7, 0, 0])).layer
      0).fences = [⟨7, [0]⟩] := by decide +kernel

/-! ### Leases -/

/-- The hypotheses of `LeaseTakeIsDecidedByTheTableOfR79` for a request that is refused. -/
def LeaseRefused (h : Hub) (p : Port) (mode flags : Byte) (addr length duration limit : Nat) (status : Status)
    (detail : Nat) : Prop :=
  let m := leaseMsg 7 mode flags addr length duration limit
  Taking (asked h p m) p m [] ∧ parseRequest m = some (.leaseTake 7 mode flags addr length duration limit) ∧
    WindowsApart (asked h p m).hub ∧ TranslatesTo (asked h p m).hub p addr length addr ∧
    firstThatHolds (leaseTable (asked h p m).hub p 7 mode flags addr length duration limit addr) = some (status, detail)

/-- A request of P2 for the first segment that waits. -/
def aWait : Waiting := ⟨2, 9, 0, 256, .sole, 10, 60⟩

/-- The hub with waiting requests. -/
def withWaits (h : Hub) (ws : List Waiting) : Hub := { h with leases := { h.leases with waits := ws } }

/-- A lease table without a free slot: sixteen leases of P1, a segment each from segment 16 on. -/
def fullTable (h : Hub) : Hub :=
  let held (x : LeaseSlot) : LeaseSlot := { x with lease := some { aLease with base := 256 * (16 + x.id.val) } }
  { h with leases := { h.leases with slots := h.leases.slots.map held } }

/-- R79: a witness for each condition. -/
theorem witness_lease_take_refused :
    LeaseRefused serving 0 2 0 0 256 10 10 .malformed 0 ∧
    LeaseRefused serving 0 0 0 0 256 0 10 .malformed 0 ∧
    LeaseRefused (serving.addTag 0 7) 0 0 0 0 256 1 1 .tagInUse 0 ∧
    LeaseRefused serving 0 0 0 0x0FFFFF00 512 1 1 .noWindow 0 ∧
    LeaseRefused (withLease serving { aLease with owner := 0 }) 0 0 0 0 512 1 1 .overlap 0 ∧
    LeaseRefused (withWaits serving [aWait, { aWait with port := 0 }]) 0 0 0 0 256 1 1 .overlap 17 ∧
    LeaseRefused (fullTable serving) 0 0 0 0 256 1 1 .leaseFull 0 ∧
    LeaseRefused (withLease serving aLease) 0 0 0 0 256 1 1 .conflict 0 ∧
    LeaseRefused (withWaits serving [aWait]) 0 0 0 0 256 1 1 .conflict 16 ∧
    LeaseRefused (withWaits (fullTable serving) (List.replicate 8 { aWait with base := 0x1000 })) 0 0 1 0 256 1 1
      .leaseFull 1 := by
  refine ⟨?_, ?_, ?_, ?_, ?_, ?_, ?_, ?_, ?_, ?_⟩ <;>
    exact ⟨taking_asked _ _ _ rfl rfl rfl rfl, by decide +kernel, windows_apart rfl, translates _ rfl _ _ _,
      by decide +kernel⟩

/-- R79: a request that waits behind the lease of another port. -/
theorem witness_lease_take_waits :
    (let m := leaseMsg 7 0 1 0 256 10 20
     let s := asked (withLease serving aLease) 0 m
     Taking s 0 m [] ∧ parseRequest m = some (.leaseTake 7 0 1 0 256 10 20) ∧ WindowsApart s.hub ∧
       Enabled s.hub 0 0 ⟨0, 0x10000000, 0, true, true⟩ ∧ 0 ≤ 0 ∧ 0 + 256 ≤ 0 + 0x10000000 ∧ SlotsLaw s.hub ∧
       firstThatHolds (leaseTable s.hub 0 7 0 1 0 256 10 20 0) = none ∧ blockedTake s.hub 0 .sole 0 256 = true) :=
  ⟨taking_asked _ _ _ rfl rfl rfl rfl, by decide +kernel, windows_apart rfl, (enabled_power_up rfl).2 ⟨rfl, rfl⟩,
    by decide, by decide, rfl, by decide +kernel, by decide +kernel⟩

/-- R82, R84: a request that takes slot 0, with a READ of another port to drain and with none. -/
theorem witness_lease_take_placed :
    (let m := leaseMsg 7 0 0 0 256 10 20
     let w (h : Hub) (drain : List Index) : Prop :=
       let s := asked h 0 m
       Taking s 0 m [] ∧ parseRequest m = some (.leaseTake 7 0 0 0 256 10 20) ∧ WindowsApart s.hub ∧
         Enabled s.hub 0 0 ⟨0, 0x10000000, 0, true, true⟩ ∧ 0 ≤ 0 ∧ 0 + 256 ≤ 0 + 0x10000000 ∧ SlotsLaw s.hub ∧
         firstThatHolds (leaseTable s.hub 0 7 0 0 0 256 10 20 0) = none ∧ blockedTake s.hub 0 .sole 0 256 = false ∧
         drainSet s.hub.table 0 .sole 0 256 = drain ∧
         ∃ x ∈ s.hub.leases.slots, x.lease = none ∧ ∀ y ∈ s.hub.leases.slots, y.lease = none → x.id ≤ y.id
     w serving [] ∧ w { serving with table := [{ aRead with port := 1 }] } [0]) := by
  refine ⟨?_, ?_⟩ <;>
    exact ⟨taking_asked _ _ _ rfl rfl rfl rfl, by decide +kernel, windows_apart rfl, (enabled_power_up rfl).2 ⟨rfl, rfl⟩,
      by decide, by decide, rfl, by decide +kernel, by decide +kernel, by decide +kernel, by decide +kernel⟩

/-- R75, R80, R84: an undisturbed LEASE_TAKE is granted at once in slot 0, generation 1, with its duration 300. -/
theorem test_lease_take_is_granted :
    (let h := run (.leaseTake 2) (asked serving 2 (leaseMsg 7 0 0 0x100 0x200 300 5))
     (h.leases.slots.head?, h.leases.grants, (h.link 2).outbound)) =
      (some ⟨0, 1, some ⟨2, 0x100, 0x200, .sole, .granted 300⟩⟩, 1, [.reply ⟨7, .ok, 0, [0, 1, 0x2C, 1]⟩]) := by
  decide +kernel

/-- R81: with the queue flag set a blocked request waits, its tag outstanding. -/
theorem test_lease_take_waits :
    (let h := run (.leaseTake 0) (asked (withLease serving aLease) 0 (leaseMsg 7 0 1 0 256 10 20))
     (h.leases.waits, (h.layer 0).tags)) = ([⟨0, 7, 0, 256, .sole, 10, 20⟩], [7]) := by decide +kernel

/-- R91, R92: for each clause of `LeaseDropAndRenewActOnANamedLease` the message it is about, and a lease that P1 holds. -/
theorem witness_lease_drop_and_renew :
    (let h := withLease serving aLease
     let drop (r : Byte) : List Byte := [0x21, 7, 0, 1, r, 0, 0, 0]
     let renew (d r : Byte) : List Byte := [0x22, 7, 0, 1, d, 0, r, 0]
     let lease : LeaseSlot := ⟨0, 1, some aLease⟩
     (Taking (asked h 1 (drop 0)) 1 (drop 0) [] ∧ parseRequest (drop 0) = some (.leaseDrop 7 0 1 0) ∧
       SlotsLaw (asked h 1 (drop 0)).hub ∧ lease ∈ h.leases.slots) ∧
     (Taking (asked h 1 (drop 1)) 1 (drop 1) [] ∧ parseRequest (drop 1) = some (.leaseDrop 7 0 1 1) ∧
       SlotsLaw (asked h 1 (drop 1)).hub ∧ lease ∈ h.leases.slots) ∧
     (Taking (asked h 1 (renew 9 0)) 1 (renew 9 0) [] ∧ parseRequest (renew 9 0) = some (.leaseRenew 7 0 1 9 0) ∧
       SlotsLaw (asked h 1 (renew 9 0)).hub ∧ lease ∈ h.leases.slots) ∧
     (Taking (asked h 1 (renew 0 0)) 1 (renew 0 0) [] ∧ parseRequest (renew 0 0) = some (.leaseRenew 7 0 1 0 0) ∧
       SlotsLaw (asked h 1 (renew 0 0)).hub ∧ lease ∈ h.leases.slots) ∧
     lease.id.val = 0 ∧ lease.generation = 1 ∧ lease.lease = some aLease ∧ aLease.owner = 1 ∧
     aLease.phase = .granted 50) := by
  refine ⟨?_, ?_, ?_, ?_, rfl, rfl, rfl, rfl, rfl⟩ <;>
    exact ⟨taking_asked _ _ _ rfl rfl rfl rfl, by decide +kernel, rfl, by decide +kernel⟩

/-- R91, R92: a handle that names no lease of the port, since no slot holds one. -/
theorem witness_no_lease :
    Taking (asked serving 1 [0x21, 7, 0, 1, 0, 0, 0, 0]) 1 [0x21, 7, 0, 1, 0, 0, 0, 0] [] ∧
      (serving.layer 1).tags.contains 7 = false ∧ ((serving.addTag 1 7).layer 1).tags.contains 7 = true ∧
      ¬ ∃ x l, x ∈ serving.leases.slots ∧ x.lease = some l := by
  refine ⟨taking_asked _ _ _ rfl rfl rfl rfl, by decide +kernel, by decide +kernel, ?_⟩
  rintro ⟨x, l, hx, hl⟩
  have none_held : ∀ x ∈ serving.leases.slots, x.lease = none := by decide +kernel
  rw [none_held x hx] at hl
  cases hl

/-- R90, R91: the dropped lease leaves its slot, whose generation stays; the READ it held is QUEUED. -/
theorem test_lease_drop :
    (let held := { aRead with phase := .held, holds := { Holds.none with lease := true } }
     let h := run (.leaseDrop 1) (asked (withLease { serving with table := [held] } aLease) 1 [0x21, 7, 0, 1, 0, 0, 0, 0])
     (h.leases.slots.head?, h.table, replies h 1)) = (some ⟨0, 1, none⟩, [aRead], [(7, .ok, 0)]) := by decide +kernel

/-- R92: at 0 ms a renewal for 9 ms moves the expiry to 9. -/
theorem test_lease_renew :
    (run (.leaseRenew 1) (asked (withLease serving aLease) 1 [0x22, 7, 0, 1, 9, 0, 0, 0])).leases.slots.head? =
      some ⟨0, 1, some { aLease with phase := .granted 9 }⟩ := by decide +kernel

/-- R92: a handle of an older generation names no lease. -/
theorem test_lease_renew_no_lease :
    replies (run (.leaseRenew 1) (asked (withLease serving aLease) 1 [0x22, 7, 0, 0, 9, 0, 0, 0])) 1 = [(7, .noLease, 0)] := by
  decide +kernel

/-! ### REST and WAKE -/

/-- R103, R104: the two requests with and without the reserved bytes at 0, the tag free and in use, and the six states. -/
theorem witness_rest_and_wake :
    (∀ c : Channel,
      Taking (asked { serving with channel := c } 0 [0x31, 7, 0, 0]) 0 [0x31, 7, 0, 0] [] ∧
        (asked { serving with channel := c } 0 [0x31, 7, 0, 0]).hub.channel = c) ∧
    Taking (asked serving 0 [0x30, 7, 0, 0]) 0 [0x30, 7, 0, 0] [] ∧
    parseRequest [0x30, 7, 0, 0] = some (.rest 7 0) ∧ parseRequest [0x31, 7, 0, 0] = some (.wake 7 0) ∧
    firstThatHolds [((0 : Nat) != 0, Status.malformed, 0), ((serving.layer 0).tags.contains 7, .tagInUse, 0)] = none ∧
    Taking (asked serving 0 [0x30, 7, 0, 1]) 0 [0x30, 7, 0, 1] [] ∧ Taking (asked serving 0 [0x31, 7, 0, 1]) 0 [0x31, 7, 0, 1] [] ∧
    parseRequest [0x30, 7, 0, 1] = some (.rest 7 256) ∧ parseRequest [0x31, 7, 0, 1] = some (.wake 7 256) ∧
    firstThatHolds [((256 : Nat) != 0, Status.malformed, 0), ((serving.layer 0).tags.contains 7, .tagInUse, 0)] =
      some (.malformed, 0) := by
  refine ⟨fun c => ⟨taking_asked _ _ _ rfl rfl rfl rfl, rfl⟩, taking_asked _ _ _ rfl rfl rfl rfl, by decide +kernel,
    by decide +kernel, by decide +kernel, taking_asked _ _ _ rfl rfl rfl rfl, taking_asked _ _ _ rfl rfl rfl rfl,
    by decide +kernel, by decide +kernel, by decide +kernel⟩

/-- The hub with the votes of P1, P2 and P3 set. -/
def threeVotes : Hub := { serving with rest := { serving.rest with votes := ⟨false, true, true, true⟩ } }

/-- R103, R105, R106: the last vote with an empty table closes SERVING, and the close-all demand is presented. -/
theorem test_rest_enters :
    (let h := run (.rest 0) (asked threeVotes 0 [0x30, 7, 0, 0])
     (h.channel, h.rest.items.closeAll, replies h 0)) = (.entering, true, [(7, .ok, 0)]) := by decide +kernel

/-- R102, R109, R112: a port asks for the memory in RESTING, in RESTING under a pending change, and in SERVING. -/
theorem witness_want_memory :
    (let h : Hub := { serving with channel := .resting }
     let c : Hub := { h with config := { h.config with change := some ⟨.hubReset, 0, 9, false⟩ } }
     (h.channel = .resting ∧ h.config.change = none) ∧ c.config.change ≠ none ∧ serving.channel ≠ .resting) := by
  decide +kernel

/-- R102, R109: asking in RESTING starts the exit wait and loads the interval timer, 1560 periods. -/
theorem test_want_memory :
    (let h := ({ threeVotes with channel := .resting, now := 40 } : Hub).wantMemory 2
     (h.channel, h.rest.leaving, h.upkeep.timer, h.rest.votes)) =
      (.leaving, some .exitWait, some 1600, ⟨false, true, false, true⟩) := by decide +kernel

/-- R104, R157: a WAKE in BRINGUP clears the vote and is answered at once. -/
theorem test_wake_in_bringup :
    (let h := run (.wake 1) (asked { threeVotes with channel := .bringup } 1 [0x31, 7, 0, 0])
     (replies h 1, h.rest.wakes, h.rest.votes.get 1, (h.layer 1).tags)) = ([(7, .ok, 0)], [], false, []) := by decide +kernel

/-- R104, R109: a WAKE while RESTING is deferred and starts LEAVING. -/
theorem test_wake_leaves :
    (let h := run (.wake 0) (asked { serving with channel := .resting } 0 [0x31, 7, 0, 0])
     h.channel = .leaving ∧ h.rest.leaving = some .exitWait ∧ h.rest.wakes = [(0, 7)] ∧ replies h 0 = []) := by
  decide +kernel

/-! ### The arbiter's turn, QUERY, and messages that are no request -/

/-- R159: the four reasons for which no message is taken. -/
theorem witness_no_message_is_taken :
    16 ≤ ((serving.onLink 0 (fun l => { l with outbound := List.replicate 16 (.reply ⟨0, .ok, 0, []⟩) })).link 0).outbound.length ∧
    ((serving.defer 0 (.wake 3)).layer 0).replies ≠ [] ∧
    ((serving.notify 0 .channelState 2 none).layer 0).notices ≠ NoticeSet.empty ∧
    (serving.link 0).inbound = [] ∧ Instr.read 0 ∈ [Instr.read 0] := by decide +kernel

/-- R162: a QUERY of each subject, of the two malformed kinds, and a message of an unknown kind. -/
theorem witness_query_and_no_request :
    (∀ m ∈ ([[0x40, 7, 0, 0], [0x40, 7, 1, 3], [0x40, 7, 6, 0], [0x40, 7, 7, 0], [0x40, 7, 1, 4], [0x40, 7, 0, 1], [0x13, 7]] :
        List (List Byte)), Taking (asked serving 0 m) 0 m []) ∧
    parseRequest [0x40, 7, 0, 0] = some (.query 7 0 0) ∧ parseRequest [0x40, 7, 1, 3] = some (.query 7 1 3) ∧
    parseRequest [0x40, 7, 6, 0] = some (.query 7 6 0) ∧ parseRequest [0x40, 7, 7, 0] = some (.query 7 7 0) ∧
    parseRequest [0x40, 7, 1, 4] = some (.query 7 1 4) ∧ parseRequest [0x40, 7, 0, 1] = some (.query 7 0 1) ∧
    parseRequest [0x13, 7] = none ∧ (serving.layer 0).tags.contains 7 = false :=
  ⟨fun _ _ => taking_asked _ _ _ rfl rfl rfl rfl, by decide +kernel⟩

/-- R163: the HUB record of a SERVING hub: debt 0, CLEAR, P0 the holder, every link UP, nothing in the tables. -/
theorem test_query_hub :
    ((run (.query 1) (asked serving 1 [0x40, 7, 0, 0])).link 1).outbound =
      [.reply ⟨7, .ok, 0, [0, 2, 0, 0, 0, 0, 0xAA, 0, 0, 0, 0, 0]⟩] := by decide +kernel

/-- R156: the reply to a message of one byte carries tag 0; R162: it counts as a refusal. -/
theorem test_malformed_message :
    (let h := run (.malformedMessage 1) (asked serving 1 [0x40])
     (replies h 1, (h.layer 1).taken, (h.layer 1).refusals)) = ([(0, .malformed, 0)], 1, 1) := by decide +kernel

/-! ### The configuration unit -/

/-- A hub with a commit pending. -/
def committing (h : Hub) (force geometry : Bool) : Hub :=
  { h with config := { h.config with change := some ⟨.commit force geometry, 0, 9, false⟩ } }

/-- A hub with a HUB_RESET pending. -/
def resetting (h : Hub) : Hub := { h with config := { h.config with change := some ⟨.hubReset, 0, 9, false⟩ } }

/-- The hub with another staged set. -/
def staging (h : Hub) (c : Params) : Hub := { h with config := { h.config with staged := c } }

/-- The hub with no holder of the control role. -/
def vacant (h : Hub) : Hub := { h with config := { h.config with holder := none } }

/-- R116: the three opening checks, on a hub, a port and a tag. -/
theorem witness_role_checks :
    firstThatHolds (roleTable serving 0 7 true) = some (.malformed, 0) ∧
    firstThatHolds (roleTable (serving.addTag 0 7) 0 7 false) = some (.tagInUse, 0) ∧
    firstThatHolds (roleTable serving 1 7 false) = some (.noRole, 0) ∧
    firstThatHolds (roleTable (vacant serving) 1 7 false) = some (.noRole, 0xFF) ∧
    firstThatHolds (roleTable serving 0 7 false) = none := by decide +kernel

/-- R121: a CONFIG_SET that passes, one while a change is pending, and one whose second pair is bad. -/
theorem witness_config_set :
    (let m : List Byte := [0x50, 7, 0, 0, 0x0F, 0, 15, 0]
     let n : List Byte := [0x50, 7, 0, 0, 0x0F, 0, 15, 0, 0x0F, 0, 16, 0]
     let bad (x : SetPair) : Bool := !paramInRange x.id.toNat x.value
     let checks (h : Hub) (pairs : List SetPair) := firstThatHolds
       (roleTable h 0 7 ((0 : Nat) != 0 || pairs.any (fun (x : SetPair) => x.reserved != 0)) ++
         [(h.config.change.isSome, .busy, 1), (pairs.any bad, .badParam, (pairs.findIdx? bad).getD 0)])
     (Taking (asked serving 0 m) 0 m [] ∧ parseRequest m = some (.configSet 7 0 [⟨0x0F, 0, 15⟩]) ∧
       checks serving [⟨0x0F, 0, 15⟩] = none) ∧
     (Taking (asked (resetting serving) 0 m) 0 m [] ∧ parseRequest m = some (.configSet 7 0 [⟨0x0F, 0, 15⟩]) ∧
       checks (resetting serving) [⟨0x0F, 0, 15⟩] = some (.busy, 1)) ∧
     (Taking (asked serving 0 n) 0 n [] ∧ parseRequest n = some (.configSet 7 0 [⟨0x0F, 0, 15⟩, ⟨0x0F, 0, 16⟩]) ∧
       checks serving [⟨0x0F, 0, 15⟩, ⟨0x0F, 0, 16⟩] = some (.badParam, 1))) := by
  refine ⟨?_, ?_, ?_⟩ <;> exact ⟨taking_asked _ _ _ rfl rfl rfl rfl, by decide +kernel, by decide +kernel⟩

/-- R120: both ends of a range, and the values beside them. -/
theorem witness_param_in_range :
    paramInRange 0x0A 64 = true ∧ paramInRange 0x0A 16383 = true ∧ paramInRange 0x0A 63 = false ∧
      paramInRange 0x0A 16384 = false ∧ paramInRange 0x03 1024 = true ∧ paramInRange 0x03 2049 = false ∧
      paramInRange 0x18 0 = false := by decide +kernel

/-- R121: BYPASS_LIMIT is staged as 15 and not in force. -/
theorem test_config_set :
    (let c := (run (.configSet 0) (asked serving 0 [0x50, 7, 0, 0, 0x0F, 0, 15, 0])).config
     (c.staged.bypassLimit, c.committed.bypassLimit)) = (15, 4) := by decide +kernel

/-- R121: nothing is staged when the second pair is out of range. -/
theorem test_config_set_none :
    (let h := run (.configSet 0) (asked serving 0 [0x50, 7, 0, 0, 0x0F, 0, 15, 0, 0x0F, 0, 16, 0])
     (h.config.staged.bypassLimit, replies h 0)) = (4, [(7, .badParam, 1)]) := by decide +kernel

/-- The hypotheses of `CommitIsRefusedInTheOrderOfR123OrTaken` for a hub and an outcome of the checks. -/
def CommitChecked (h : Hub) (force : Byte) (outcome : Option (Status × Nat)) : Prop :=
  Taking (asked h 0 [0x51, 7, force, 0]) 0 [0x51, 7, force, 0] [] ∧
    parseRequest [0x51, 7, force, 0] = some (.configCommit 7 force.toNat 0) ∧
    firstThatHolds (commitTable (asked h 0 [0x51, 7, force, 0]).hub 0 7 force.toNat 0) = outcome

/-- R123: each condition, the cross-checks at the first value they refuse and the last they let pass. -/
theorem witness_commit :
    CommitChecked serving 2 (some (.malformed, 0)) ∧
    CommitChecked { serving with channel := .bringup } 0 (some (.busy, 1)) ∧
    CommitChecked (resetting serving) 1 (some (.busy, 1)) ∧
    CommitChecked (staging serving { Params.default with quota := ⟨9, 8, 8, 8⟩ }) 0 (some (.badParam, 0x01)) ∧
    CommitChecked (staging serving { Params.default with tOpen := 11 }) 0 (some (.badParam, 0x02)) ∧
    CommitChecked (staging serving { Params.default with upkeepInterval := 159 }) 0 (some (.badParam, 0x03)) ∧
    CommitChecked (staging serving { Params.default with rowBits := 13 }) 0 (some (.badParam, 0x40)) ∧
    CommitChecked { serving with table := [aRead] } 0 (some (.busy, 2)) ∧
    CommitChecked (staging serving { Params.default with tOpen := 10, upkeepInterval := 160, quota := ⟨32, 0, 0, 0⟩ }) 0
      none ∧
    CommitChecked { serving with table := [aRead] } 1 none := by
  refine ⟨?_, ?_, ?_, ?_, ?_, ?_, ?_, ?_, ?_, ?_⟩ <;>
    exact ⟨taking_asked _ _ _ rfl rfl rfl rfl, by decide +kernel, by decide +kernel⟩

/-- R124, R23: a commit with `force` frees the QUEUED entry, answers it ABORTED and stands pending. -/
theorem test_commit_force :
    (let h := run (.configCommit 0) (asked ({ serving with table := [aRead] }.addTag 0 1) 0 [0x51, 7, 1, 0])
     h.table = [] ∧ (h.layer 0).replies = [.aborted 1 0] ∧ h.config.change = some ⟨.commit true false, 0, 7, false⟩ ∧
       h.config.items.opensWithheld = true) := by decide +kernel

/-- R123: without `force` an occupied entry makes the commit BUSY with detail 2. -/
theorem test_commit_busy :
    replies (run (.configCommit 0) (asked { serving with table := [aRead] } 0 [0x51, 7, 0, 0])) 0 = [(7, .busy, 2)] := by
  decide +kernel

/-- The hypotheses of `WindowSetIsRefusedInTheOrderOfR140OrSets` for a hub and an outcome of the checks. -/
def WindowChecked (h : Hub) (port window enable rights : Byte) (base size target : Nat)
    (outcome : Option (Status × Nat)) : Prop :=
  let m := windowMsg 7 port window enable rights base size target
  Taking (asked h 0 m) 0 m [] ∧
    parseRequest m = some (.windowSet 7 port.toNat window.toNat enable.toNat rights 0 base size target) ∧
    firstThatHolds (windowTable (asked h 0 m).hub 0 7 port.toNat window.toNat enable.toNat rights 0 base size target) =
      outcome

/-- R140: each condition, at the ends of the ranges. -/
theorem witness_window_set :
    WindowChecked serving 4 0 1 3 0 0x100 0 (some (.malformed, 0)) ∧
    WindowChecked serving 0 0 1 0 0 0x100 0 (some (.malformed, 0)) ∧
    WindowChecked serving 0 0 1 3 0 0x80000100 0 (some (.malformed, 0)) ∧
    WindowChecked (resetting serving) 0 0 1 3 0 0x100 0 (some (.busy, 1)) ∧
    WindowChecked serving 0 0 1 3 0 0x200 0x0FFFFF00 (some (.badParam, 0x10)) ∧
    WindowChecked serving 0 1 1 3 0x0FFFFF00 0x100 0 (some (.badParam, 0x20)) ∧
    WindowChecked serving 3 3 1 1 0x10000000 0x10000000 0 none ∧
    WindowChecked serving 0 0 0 0 0 0 0 none := by
  refine ⟨?_, ?_, ?_, ?_, ?_, ?_, ?_, ?_⟩ <;>
    exact ⟨taking_asked _ _ _ rfl rfl rfl rfl, by decide +kernel, by decide +kernel⟩

/-- R140: window 3 of P3 is set with the read right alone. -/
theorem test_window_set :
    ((run (.windowSet 0) (asked serving 0 (windowMsg 7 3 3 1 1 0x10000000 0x10000000 0))).windows.get 3).get 3 =
      some ⟨0x10000000, 0x10000000, 0, true, false⟩ := by decide +kernel

/-- R140: `enable` 0 disables the window. -/
theorem test_window_disabled :
    ((run (.windowSet 0) (asked serving 0 (windowMsg 7 3 0 0 0 0 0 0))).windows.get 3).get 0 = none := by decide +kernel

/-- R117, R118: the checks of CLAIM and HANDOVER, each outcome. -/
theorem witness_claim_and_handover :
    (let claim : List Byte := [0x54, 7, 0, 0]
     let give (t : Byte) : List Byte := [0x53, 7, t, 0]
     let down := serving.onLink 3 (fun l => { l with state := .training })
     let claimChecks (h : Hub) := firstThatHolds [((0 : Nat) != 0, Status.malformed, 0),
       ((h.layer 1).tags.contains 7, .tagInUse, 0), (h.config.holder.isSome, .noRole, match h.config.holder with
         | some q => q.val
         | none => 0)]
     let giveChecks (h : Hub) (target : Nat) := firstThatHolds (roleTable h 0 7 (decide (3 < target) || (0 : Nat) != 0) ++
       [((h.link (Fin.ofNat 4 target)).state != .up, .badParam, target)])
     (Taking (asked (vacant serving) 1 claim) 1 claim [] ∧ parseRequest claim = some (.claim 7 0) ∧
       claimChecks (vacant serving) = none) ∧
     (Taking (asked serving 1 claim) 1 claim [] ∧ parseRequest claim = some (.claim 7 0) ∧
       claimChecks serving = some (.noRole, 0)) ∧
     (Taking (asked serving 0 (give 3)) 0 (give 3) [] ∧ parseRequest (give 3) = some (.handover 7 3 0) ∧
       giveChecks serving 3 = none) ∧
     (Taking (asked serving 0 (give 0)) 0 (give 0) [] ∧ parseRequest (give 0) = some (.handover 7 0 0) ∧
       giveChecks serving 0 = none) ∧
     (Taking (asked serving 0 (give 4)) 0 (give 4) [] ∧ parseRequest (give 4) = some (.handover 7 4 0) ∧
       giveChecks serving 4 = some (.malformed, 0)) ∧
     (Taking (asked down 0 (give 3)) 0 (give 3) [] ∧ parseRequest (give 3) = some (.handover 7 3 0) ∧
       giveChecks down 3 = some (.badParam, 3))) := by
  refine ⟨?_, ?_, ?_, ?_, ?_, ?_⟩ <;> exact ⟨taking_asked _ _ _ rfl rfl rfl rfl, by decide +kernel, by decide +kernel⟩

/-- R117, R119: the claimant becomes the holder, and the other UP ports are told too. -/
theorem test_claim :
    (let h := run (.claim 1) (asked (vacant serving) 1 [0x54, 7, 0, 0])
     (h.config.holder, (h.layer 3).notices.controlChanged)) = (some 1, some ⟨1, 1, []⟩) := by decide +kernel

/-- R118: the holder hands the role to P2. -/
theorem test_handover :
    (let h := run (.handover 0) (asked serving 0 [0x53, 7, 2, 0])
     (h.config.holder, replies h 0)) = (some 2, [(7, .ok, 0)]) := by decide +kernel

/-- R131: the checks of HUB_RESET. -/
theorem witness_hub_reset :
    (let m : List Byte := [0x55, 7, 0, 0]
     let checks (h : Hub) := firstThatHolds (roleTable h 0 7 ((0 : Nat) != 0) ++
       [(h.channel == .bringup || h.config.change.isSome, .busy, 1)])
     (Taking (asked serving 0 m) 0 m [] ∧ parseRequest m = some (.hubReset 7 0) ∧ checks serving = none) ∧
     (Taking (asked { serving with channel := .bringup } 0 m) 0 m [] ∧ parseRequest m = some (.hubReset 7 0) ∧
       checks { serving with channel := .bringup } = some (.busy, 1))) := by
  refine ⟨?_, ?_⟩ <;> exact ⟨taking_asked _ _ _ rfl rfl rfl rfl, by decide +kernel, by decide +kernel⟩

/-- R24, R97: the entries and the leases are gone, the tag of the entry is free, and no ABORTED is owed. -/
theorem test_hub_reset :
    (let h := run (.hubReset 0) (asked ({ withLease serving aLease with table := [aRead] }.addTag 0 1) 0 [0x55, 7, 0, 0])
     h.table = [] ∧ h.leases.slots.head? = some ⟨0, 1, none⟩ ∧ (h.layer 0).tags = [7] ∧ (h.layer 0).replies = []) := by
  decide +kernel

/-- R127: SETTLE with its end at 1000. -/
def settling : Hub :=
  { serving with
    channel := .bringup
    config := { serving.config with bringup := some ⟨.settle, 1000, 0, 0, 9, false, false⟩ } }

/-- R125, R127: SETTLE under way; a commit pending with nothing in flight. -/
theorem witness_commit_copy :
    (Running (idle settling) ∧ settling.config.bringup = some ⟨.settle, 1000, 0, 0, 9, false, false⟩) ∧
    (Running (idle (committing serving false true)) ∧
      (committing serving false true).config.change = some ⟨.commit false true, 0, 9, false⟩ ∧
      (committing serving false true).scheduler.burst = none ∧ (committing serving false true).scheduler.flight = none ∧
      (committing serving false true).dram.retention = false) := ⟨⟨rfl, rfl⟩, rfl, rfl, rfl, rfl, rfl⟩

/-- R127: the clock stands at the end of SETTLE, and ALL_CLOSE is demanded. -/
theorem test_settle_end :
    (let h := run .settleEnd (idle settling)
     (h.now, h.config.bringup.map Bringup.phase, h.config.bringupItems.allClose)) = (1000, some .close, true) := by
  decide +kernel

/-- R125, R126: the staged set is in force, SETTLE lasts 16 × 1560 periods, and the memory has been forgotten. -/
theorem test_commit_copy :
    (let h := run .commitCopy (idle (committing (staging serving { Params.default with rowBits := 15 }) false true))
     h.config.committed.rowBits = 15 ∧ h.channel = .bringup ∧ h.config.bringup.map Bringup.settleEnd = some 24960 ∧
       h.dram.epoch = 1 ∧ h.upkeep.timer = none) := by decide +kernel

/-- R132: a HUB_RESET pending with nothing in progress, a bank OPEN among the CLOSED ones. -/
theorem witness_reset_event :
    (let h := resetting (withBank serving (openBank 3))
     Running (idle h) ∧ h.config.change = some ⟨.hubReset, 0, 9, false⟩ ∧ h.scheduler.burst = none ∧
       h.scheduler.flight = none ∧ (∀ k ∈ h.scheduler.banks, k.state = .closed ∨ k.state = .opened) ∧
       h.dram.retention = false) := ⟨rfl, rfl, rfl, rfl, by decide +kernel, rfl⟩

/-- R132: the units are as after power-up, the holder stays, and the OK is pending. -/
theorem test_reset_event :
    (let h := run .resetEvent (idle (resetting (withBank serving (openBank 3))))
     h.channel = .unready ∧ h.scheduler = Scheduler.powerUp ∧ h.config.holder = some 0 ∧
       (h.layer 0).replies = [.hubReset 9] ∧ h.dram.epoch = 1) := by decide +kernel

/-! ### Replies and notices -/

/-- R17: the reply of a DONE entry at the head of the pending list; R158: the other kinds of reply; R161: a notice. -/
theorem witness_placing :
    (let h := { serving with table := [{ aRead with phase := .done }] }.defer 0 (.entry 1 0)
     Running (idle h) ∧ (h.layer 0).replies = .entry 1 0 :: [] ∧ (h.link 0).outbound.length < 16 ∧
       h.entry 0 = some { aRead with phase := .done }) ∧
    (∀ r : PendingReply, Running (idle (serving.defer 0 r)) ∧ ((serving.defer 0 r).layer 0).replies = r :: [] ∧
      ((serving.defer 0 r).link 0).outbound.length < 16) ∧
    (let h := serving.notify 0 .leaseLapsed 0 (some ⟨3, 1⟩)
     Running (idle h) ∧ (h.layer 0).replies = [] ∧ (h.link 0).outbound.length < 16 ∧
       (h.layer 0).notices.get .leaseLapsed = some ⟨1, 0, [⟨3, 1⟩]⟩ ∧
       ∀ j : NoticeKind, j.code < 3 → (h.layer 0).notices.get j = none) := by
  refine ⟨⟨rfl, by decide +kernel, by decide +kernel, by decide +kernel⟩, fun r => ⟨rfl, rfl, (by decide : 0 < 16)⟩,
    rfl, by decide +kernel, by decide +kernel, by decide +kernel, ?_⟩
  intro j hj
  cases j <;> first | rfl | exact absurd hj (by decide)

/-- R16, R17: the reply carries the word read; the entry is free, and the tag leaves the set. -/
theorem test_place_reply :
    (let h := run (.placeReply 0) (idle (({ serving with
       table := [{ aRead with phase := .done, wordsDone := 1, buffer := [0x0102030405060708] }] }.defer 0 (.entry 1 0)).addTag 0 1))
     (h.link 0).outbound = [.reply ⟨1, .ok, 0, [8, 7, 6, 5, 4, 3, 2, 1]⟩] ∧ h.table = [] ∧ (h.layer 0).tags = [] ∧
       (h.layer 0).completed = 1) := by decide +kernel

/-- R19: the placing of a fence's reply releases the entry behind it. -/
theorem test_place_fence :
    (let held := { aRead with phase := .held, holds := { Holds.none with fencesAhead := 1 } }
     let h := run (.placeReply 0) (idle (({ serving with table := [held] }.onMessages 0
       (fun m => { m with fences := [⟨5, []⟩] })).defer 0 (.fence 5)))
     h.table = [aRead] ∧ (h.layer 0).fences = []) := by decide +kernel

/-- R159, R161: of two records the one of the lower kind goes first, its repeat count in it. -/
theorem test_place_notice :
    (let h := run (.placeNotice 0) (idle (((serving.notify 0 .leaseLapsed 0 (some ⟨3, 1⟩)).notify 0 .channelState 3 none).notify
       0 .channelState 2 none))
     (h.link 0).outbound = [.notice .channelState ⟨2, 2, []⟩] ∧ (h.layer 0).notices.leaseLapsed = some ⟨1, 0, [⟨3, 1⟩]⟩) := by
  decide +kernel

/-- R161: a record of a kind that is present already: its count stands at 255, its list of handles at 16. -/
theorem test_give_full :
    (let full : MessageLayer := { MessageLayer.powerUp with
       notices := { NoticeSet.empty with leaseLapsed := some ⟨255, 0, List.replicate 16 ⟨3, 1⟩⟩ } }
     (full.give .leaseLapsed 0 (some ⟨4, 1⟩)).notices) =
      { NoticeSet.empty with leaseLapsed := some ⟨255, 0, List.replicate 16 ⟨3, 1⟩⟩ } := by decide +kernel

/-! ### Links -/

/-- The serving hub with the link of P0 replaced. -/
def withLink (l : Link) : Hub := serving.onLink 0 (fun _ => l)

/-- A link in training, in the given step. -/
def trainingLink (step : TrainingStep) : Link := { Link.powerUp with step := some step }

/-- A REPLY that waits or has been sent. -/
def aReply : OutMessage := .reply ⟨1, .ok, 0, []⟩

/-- The hypotheses on the state of the statements about links: the link of P0 is any link that is UP, or any in TRAINING. -/
def LinksMeet : Prop := (∀ l : Link, l.state = .up → LinkUp (idle (withLink l)) 0 ∧ (withLink l).link 0 = l) ∧
  ∀ l : Link, l.state = .training → LinkTraining (idle (withLink l)) 0 ∧ (withLink l).link 0 = l

theorem witness_links : LinksMeet := ⟨fun _ e => ⟨⟨rfl, e⟩, rfl⟩, fun _ e => ⟨⟨rfl, e⟩, rfl⟩⟩

/-- The bytes of a frame that says `f` are on the line of a link that stands between frames, in a new frame, and waiting for
a start mark, and they are a good frame (R169, R181). -/
def GoodFrameHeard (f : FrameBody) : Prop :=
  parseFrame f.bytes = some f ∧
    ∀ state ∈ [LinkState.up, .training],
      Hears (idle (withLink { upLink with state := state })) 0 (lineOf f.bytes) (.delimited f.bytes) .between ∧
      Hears (idle (withLink { upLink with state := state, receiver := .within [] })) 0
        (f.bytes.map LineSymbol.data ++ [.endMark]) (.delimited f.bytes) .between ∧
      Hears (idle (withLink { upLink with state := state, receiver := .waiting })) 0 (.data 1 :: lineOf f.bytes)
        (.delimited f.bytes) .between

/-- R170: a MESSAGE frame in sequence with a place free and with none, one that is 1 and one that is 128 ahead (modulo 256),
and a repeat 129 ahead. -/
theorem witness_message_frame :
    LinksMeet ∧
    (∀ seq ∈ ([0, 1, 128, 129] : List Byte), GoodFrameHeard (.message seq [0x12, 1, 0, 0])) ∧
    (({ upLink with inbound := [[1], [2], [3]] } : Link).inbound.length < 4) ∧
    (4 ≤ ({ upLink with inbound := [[1], [2], [3], [4]] } : Link).inbound.length) ∧
    ((1 : Byte) - upLink.expected).toNat = 1 ∧ ((128 : Byte) - upLink.expected).toNat = 128 ∧
    ((129 : Byte) - upLink.expected).toNat = 129 ∧
    (((0 : Byte) - ({ upLink with expected := 255 } : Link).expected).toNat = 1) := by
  refine ⟨witness_links, ?_, by decide +kernel⟩
  unfold GoodFrameHeard Hears
  decide +kernel

/-- R170, R171: the frame in sequence joins the inbound list, and an ACK is owed within 4 µs, 1600 periods. -/
theorem test_message_frame_accepted :
    (let l := (run (.messageFrameReceived 0 (lineOf (FrameBody.message 0 [0x12, 1, 0, 0]).bytes)) (idle serving)).link 0
     (l.inbound, l.expected, l.ackOwed)) = ([[0x12, 1, 0, 0]], 1, some 1600) := by decide +kernel

/-- R170: a frame ahead of the expected one is answered NAK ORDER, naming the expected sequence. -/
theorem test_message_frame_order :
    (let l := (run (.messageFrameReceived 0 (lineOf (FrameBody.message 2 [0x12, 1, 0, 0]).bytes)) (idle serving)).link 0
     (l.inbound, l.nakMark, l.wire)) = ([], true, [(FrameBody.nak 0 .order).bytes]) := by decide +kernel

/-- R173, R174: ACK and NAK frames with a room of 0 and of 4 and each reason. -/
theorem witness_ack_and_nak :
    LinksMeet ∧
    ∀ f ∈ [FrameBody.ack 3 0, .ack 3 4, .nak 3 .corrupt, .nak 3 .order, .nak 3 .full], GoodFrameHeard f := by
  refine ⟨witness_links, ?_⟩
  unfold GoodFrameHeard Hears
  decide +kernel

/-- A link with frames 3, 4 and 5 on its replay list. -/
def sendingLink : Link :=
  { upLink with replay := [⟨3, aReply⟩, ⟨4, aReply⟩, ⟨5, aReply⟩], sendSeq := 6, farRoom := 1, replayTimer := some 9, replays := 2 }

/-- R173: an ACK of 4 removes frames 3 and 4, gives room 2 and loads the timer with 32 µs, 12800 periods. -/
theorem test_ack_received :
    (let l := (run (.ackReceived 0 (lineOf (FrameBody.ack 4 2).bytes)) (idle (withLink sendingLink))).link 0
     (l.replay.map SentFrame.seq, l.farRoom, l.replayTimer, l.replays)) = ([5], 2, some 12800, 0) := by decide +kernel

/-- R174: a NAK CORRUPT of 4 removes frame 3 and sends again from 4. -/
theorem test_nak_received :
    (let l := (run (.nakReceived 0 (lineOf (FrameBody.nak 4 .corrupt).bytes)) (idle (withLink sendingLink))).link 0
     (l.replay.map SentFrame.seq, l.resend, l.replays)) = ([4, 5], some 4, 0) := by decide +kernel

/-- R174: a NAK FULL sets the far-end room to 0 and the full wait. -/
theorem test_nak_full :
    (let l := (run (.nakReceived 0 (lineOf (FrameBody.nak 3 .full).bytes)) (idle (withLink sendingLink))).link 0
     (l.farRoom, l.fullWait, l.replay.length)) = (0, true, 3) := by decide +kernel

/-- R167, R168: the frames of training, and a link in each step with and without the far end's READY and its own. -/
theorem witness_training :
    LinksMeet ∧
    (∀ f ∈ [FrameBody.align, .ready 0, .ready 4], GoodFrameHeard f) ∧
    (trainingLink .align).step = some .align ∧ (trainingLink .align).trainingTimer = some 800000 ∧
    (trainingLink .ready).step = some .ready ∧ (trainingLink .ready).farReady = false ∧
    (trainingLink .ready).readySent = false ∧ ({ trainingLink .ready with farReady := true } : Link).farReady = true ∧
    ({ trainingLink .ready with readySent := true } : Link).readySent = true := by
  refine ⟨witness_links, ?_⟩
  unfold GoodFrameHeard Hears
  decide +kernel

/-- R167: an ALIGN moves the port to the READY step. -/
theorem test_align_received :
    ((run (.alignReceived 0 (lineOf FrameBody.align.bytes)) (idle (withLink (trainingLink .align)))).link 0).step = some .ready := by
  decide +kernel

/-- R168, R177: in UP an ALIGN takes the link DOWN, and the holder of the role with it. -/
theorem test_align_in_up :
    (let h := run (.alignReceived 0 (lineOf FrameBody.align.bytes)) (idle serving)
     ((h.link 0).state, h.config.holder, (h.link 1).state)) = (.training, none, .up) := by decide +kernel

/-- R167: a READY with the port's own sent brings the link UP with the far end's room. -/
theorem test_ready_received :
    (let l := (run (.readyReceived 0 (lineOf (FrameBody.ready 3).bytes))
       (idle (withLink { trainingLink .ready with readySent := true }))).link 0
     (l.state, l.farRoom, l.trainingTimer)) = (.up, 3, none) := by decide +kernel

/-- R168: in UP a READY is answered with one READY, whose room is the free places. -/
theorem test_ready_in_up :
    ((run (.readyReceived 0 (lineOf (FrameBody.ready 3).bytes)) (idle (withLink { upLink with inbound := [[1]] }))).link 0).wire =
      [(FrameBody.ready 3).bytes] := by decide +kernel

/-- R167: training starts again, and the timer with it. -/
theorem test_training_timer :
    (let l := (run (.trainingTimerExpiry 0) (idle (withLink { trainingLink .ready with farReady := true }))).link 0
     (l.step, l.farReady, l.trainingTimer)) = (some .align, false, some 1600000) := by decide +kernel

/-- R167: what the two steps send; the READY sent after the far end's brings the link UP. -/
theorem test_align_and_ready_sent :
    (let a := (run (.alignSent 0) (idle (withLink (trainingLink .align)))).link 0
     let r := (run (.readySent 0) (idle (withLink { trainingLink .ready with farReady := true, farRoom := 2 }))).link 0
     (a.wire, r.state, r.farRoom)) = ([FrameBody.align.bytes], .up, 2) := by decide +kernel

/-- R169, R181: a corrupt frame of each kind; the seventh and the eighth in a row. -/
theorem witness_corrupt_frame :
    LinksMeet ∧
    (∀ l ∈ [upLink, { upLink with corrupt := 6 }, { upLink with corrupt := 7 }, trainingLink .align],
      Hears (idle (withLink l)) 0 (lineOf []) (.delimited []) .between ∧
        Hears (idle (withLink l)) 0 cutShort .cutShort (.within []) ∧
        Hears (idle (withLink l)) 0 [.data 1, .startMark] .stray (.within []) ∧
        Hears (idle (withLink l)) 0 (.startMark :: List.replicate 279 (.data 0)) .overlong .waiting) ∧
    (∀ f ∈ [LineFrame.delimited [], .cutShort, .stray, .overlong], lineCorrupt f = true) ∧
    ({ upLink with corrupt := 6 } : Link).corrupt < 7 ∧ 7 ≤ ({ upLink with corrupt := 7 } : Link).corrupt ∧
    upLink.nakMark = false := by
  refine ⟨witness_links, ?_⟩
  unfold Hears
  decide +kernel

/-- R181: 278 bytes run within a frame, and the 279th makes it corrupt; what then comes, an end mark too, is passed over until
the next start mark. -/
theorem test_overlong_frame :
    (let full : List LineSymbol := .startMark :: List.replicate 278 (.data 0)
     Receiver.between.hear (full ++ [.endMark]) = some (.delimited (List.replicate 278 0), .between) ∧
       Receiver.between.hear (full ++ [.data 0]) = some (.overlong, .waiting) ∧
       Receiver.waiting.hear [.data 0, .endMark, .startMark, .data 4, .endMark] = some (.delimited [4], .between)) := by
  decide +kernel

/-- R181: a frame that is cut short is corrupt, and the one whose start mark cut it is received. -/
theorem test_cut_short_then_good :
    (let s := idle (serving.onLink 0 (fun l => { l with nakMark := true }))
     let h := run (.corruptFrame 0 cutShort) s
     let l := (run (.messageFrameReceived 0 (((FrameBody.message 0 [0x12, 1, 0, 0]).bytes.map .data) ++ [.endMark]))
       (idle h)).link 0
     (h.link 0).corrupt = 1 ∧ (h.link 0).receiver = .within [] ∧ l.inbound = [[0x12, 1, 0, 0]] ∧ l.corrupt = 0 ∧
       l.receiver = .between) := by decide +kernel

/-- R169: the first corrupt frame is counted and answered NAK CORRUPT. -/
theorem test_corrupt_frame :
    (let l := (run (.corruptFrame 0 cutShort) (idle serving)).link 0
     (l.corrupt, l.nakMark, l.wire)) = (1, true, [(FrameBody.nak 0 .corrupt).bytes]) := by decide +kernel

/-- R169: the eighth in a row takes the link DOWN. -/
theorem test_corrupt_frame_eighth :
    ((run (.corruptFrame 0 [.data 1, .startMark]) (idle (withLink { upLink with corrupt := 7 }))).link 0).state = .training := by
  decide +kernel

/-- R171, R172, R174: an ACK owed; a message to send with the replay list one short of full; a frame to send again; R175: the
timers, at three and at four consecutive replays, and a probe. -/
theorem witness_sending :
    LinksMeet ∧
    ({ upLink with ackOwed := some 5 } : Link).ackOwed ≠ none ∧
    (let l : Link := { upLink with outbound := [aReply], replay := List.replicate 11 ⟨3, aReply⟩, farRoom := 1 }
     l.outbound = aReply :: [] ∧ l.replay.length < 12 ∧ 0 < l.farRoom ∧ l.resend = none ∧ l.fullWait = false) ∧
    (let l : Link := { sendingLink with resend := some 4 }
     l.resend = some 4 ∧ l.replay = [⟨3, aReply⟩] ++ ⟨4, aReply⟩ :: [⟨5, aReply⟩] ∧
       (∀ x ∈ ([⟨3, aReply⟩] : List SentFrame), x.seq ≠ 4) ∧ l.fullWait = false) ∧
    (sendingLink.replayTimer = some 9 ∧ sendingLink.replay = ⟨3, aReply⟩ :: [⟨4, aReply⟩, ⟨5, aReply⟩] ∧
      ({ sendingLink with replays := 3 } : Link).replays < 4 ∧ 4 ≤ ({ sendingLink with replays := 4 } : Link).replays) ∧
    (let l : Link := { upLink with outbound := [aReply], farRoom := 0, roomTimer := some 7 }
     l.roomTimer = some 7 ∧ l.outbound = aReply :: [] ∧ l.replay = [] ∧ l.farRoom = 0) := ⟨witness_links, by decide +kernel⟩

/-- R171: the ACK names the sequence before the expected one and the free places. -/
theorem test_ack_sent :
    ((run (.ackSent 0) (idle (withLink { upLink with ackOwed := some 5, expected := 0, inbound := [[1]] }))).link 0).wire =
      [(FrameBody.ack 255 3).bytes] := by decide +kernel

/-- R172: the message goes out in a frame with the send sequence, uses one place and loads the replay timer. -/
theorem test_message_frame_sent :
    (let l := (run (.messageFrameSent 0) (idle (withLink { upLink with outbound := [aReply], sendSeq := 255 }))).link 0
     (l.outbound, l.replay, l.sendSeq, l.farRoom, l.replayTimer)) = ([], [⟨255, aReply⟩], 0, 3, some 12800) := by
  decide +kernel

/-- R174: frame 4 is sent again, and 5 is next. -/
theorem test_frame_resent :
    (let l := (run (.frameResent 0) (idle (withLink { sendingLink with resend := some 4 }))).link 0
     (l.resend, l.wire)) = (some 5, [(SentFrame.mk 4 aReply).bytes]) := by decide +kernel

/-- R175: the third replay in a row is counted and starts from the head, at 9 + 12800. -/
theorem test_replay_timer :
    (let l := (run (.replayTimerExpiry 0) (idle (withLink sendingLink))).link 0
     (l.replays, l.resend, l.replayTimer)) = (3, some 3, some 12809) := by decide +kernel

/-- R175: the expiry at four replays takes the link DOWN. -/
theorem test_replay_timer_fifth :
    ((run (.replayTimerExpiry 0) (idle (withLink { sendingLink with replays := 4 }))).link 0).state = .training := by
  decide +kernel

/-- R175: a probe goes out with no room, which stays 0. -/
theorem test_room_timer :
    (let l := (run (.roomTimerExpiry 0) (idle (withLink { upLink with outbound := [aReply], farRoom := 0, roomTimer := some 7 }))).link 0
     (l.replay, l.farRoom, l.roomTimer, l.replayTimer)) = ([⟨0, aReply⟩], 0, none, some 12807) := by decide +kernel

/-- R182: a hub that runs, and one that is held in reset. -/
theorem witness_reset_line :
    Running (idle serving) ∧ (idle (Hub.inReset 0)).hub.resetLow = true ∧ (Instr.alignSent 0 ≠ .resetLineReleased) :=
  ⟨rfl, rfl, by decide⟩

/-- R182: the fall of the line loses everything. -/
theorem test_reset_line_asserted :
    (let h := run .resetLineAsserted (idle { serving with table := [aRead] })
     (h.resetLow, h.table, (h.link 0).state, h.dram.epoch)) = (true, [], .down, 1) := by decide +kernel

/-- R182: at the release every link trains. -/
theorem test_reset_line_released :
    (let h := run .resetLineReleased (idle (Hub.inReset 1))
     (h.resetLow, (h.link 3).state, h.channel)) = (false, .training, .unready) := by decide +kernel

/-! ### The row command lane -/

/-- A bank that opens for entry 0 at row 0, with its open mark at 10, until 4. -/
def openingBank : Bank := ⟨.opening, some 0, some 0, some 10, none, false, some 4⟩

/-- A bank that closes until 4. -/
def closingBank : Bank := { Bank.closedRecord with state := .closing, doneAt := some 4 }

/-- A bank OPEN at row 1, so that `aRead` is a miss there, the time being past its marks. -/
def missBank : Hub := withBank { serving with table := [aRead], now := 20 } { openBank 1 with openMark := some 20, writeMark := some 5 }

/-- R32, R33, R36: a CLOSED bank with a candidate, an OPEN one with a miss at the passing of its open mark, and a lane that
serves them; the banks and marks that the four bank events are about. -/
theorem witness_bank_commands :
    (let h := { serving with table := [aRead] }
     Running (idle h) ∧ h.scheduler.banks[0]? = some Bank.closedRecord ∧ h.scheduler.lastServed < h.scheduler.banks.length ∧
       h.scheduler.flight = none ∧ h.channelCommandReady = false ∧ h.candidate 0 = some aRead ∧
       h.laneServes = some (0, .openFor aRead)) ∧
    (Running (idle missBank) ∧ missBank.bankReady 0 = some .close ∧ missBank.laneServes = some (0, .close)) ∧
    ({ missBank with now := 19 } : Hub).bankReady 0 = none ∧
    ((withBank serving openingBank).scheduler.banks[0]? = some openingBank ∧
      (withBank serving closingBank).scheduler.banks[0]? = some closingBank ∧
      missBank.scheduler.banks[0]? = some { openBank 1 with openMark := some 20, writeMark := some 5 }) ∧
    (let h := { serving with rest := { serving.rest with items := { Items.none with upkeep := true } } }
     h.channelCommandReady = true ∧ h.scheduler.lastServed < h.scheduler.banks.length) := by
  refine ⟨⟨rfl, ?_⟩, ⟨rfl, ?_⟩, ?_⟩ <;> decide +kernel

/-- R36, and log entry 24: three banks are ready; after bank 6 the turn is bank 7's, and after bank 6 of a table that has
only four banks left it is bank 0's. -/
theorem test_rotation :
    (let table := [{ aRead with bank := 3 }, { aRead with index := 1, bank := 0 }, { aRead with index := 2, bank := 7 }]
     let h (banks last : Nat) : Hub :=
       { serving with
         table := table
         scheduler := { serving.scheduler with banks := serving.scheduler.banks.take banks, lastServed := last } }
     ((h 8 6).laneServes.map Prod.fst, (h 8 0).laneServes.map Prod.fst, (h 4 6).laneServes.map Prod.fst)) =
      (some 7, some 3, some 0) := by decide +kernel

/-- R38, R39: an ACTIVE entry behind a QUEUED one; a miss, passed once, ahead of a hit, at BYPASS_LIMIT 1 and 2; misses
alone; a hit at the head. -/
theorem witness_candidate :
    (let k := openBank 5
     let miss := { aRead with passed := 1 }
     let hit := { aRead with index := 1, row := 5 }
     let active := { hit with index := 2, phase := .active }
     active.activeUnmarked = true ∧ (∀ x ∈ [miss], x.activeUnmarked = false) ∧ (∀ x ∈ [miss, hit], x.activeUnmarked = false) ∧
       k.hit hit = true ∧ (∀ x ∈ [miss], k.hit x = false) ∧ miss.passed = 1 ∧ miss.passed ≠ 2 ∧
       (∀ x ∈ [miss], x.index ≠ hit.index)) := by decide +kernel

/-- R32, R36: the ROW_OPEN takes the lane for one period and opens the bank in T_OPEN 4, its mark T_HOLD_MIN 10 on. -/
theorem test_row_open :
    (let h := run (.rowOpen 0) (idle { serving with table := [aRead] })
     h.scheduler.banks.head? = some openingBank ∧ h.scheduler.laneFreeAt = 1 ∧ h.scheduler.lastServed = 0 ∧
       h.scheduler.misses = 1 ∧ h.dram.issued = [.rowOpen 0 0]) := by decide +kernel

/-- R32: while another bank is served first in the rotation, a ROW_OPEN to bank 0 is not issued. -/
theorem test_row_open_waits_its_turn :
    (let h := { serving with table := [aRead, { aRead with index := 1, bank := 1 }] }
     run (.rowOpen 1) (idle h) = h) := by decide +kernel

/-- R33: a bank whose candidate is a miss is closed at its open mark, T_CLOSE 4. -/
theorem test_row_close :
    (run (.rowClose 0) (idle missBank)).scheduler.banks.head? =
      some { Bank.closedRecord with state := .closing, writeMark := some 5, doneAt := some 24 } := by decide +kernel

/-- R32, R33: the bank opens at 4, and keeps its open mark. -/
theorem test_bank_opened :
    (let h := run (.bankOpened 0) (idle (withBank serving openingBank))
     (h.now, h.scheduler.banks.head?)) = (4, some { openingBank with state := .opened, doneAt := none }) := by decide +kernel

theorem test_bank_closed :
    (let h := run (.bankClosed 0) (idle (withBank serving closingBank))
     (h.now, h.scheduler.banks.head?)) = (4, some Bank.closedRecord) := by decide +kernel

theorem test_open_mark_passed :
    (run (.openMarkPassed 0) (idle (withBank serving { openBank 1 with openMark := some 10 }))).now = 10 := by decide +kernel

theorem test_write_recovery_mark_passed :
    (let h := run (.writeRecoveryMarkPassed 0) (idle (withBank serving { openBank 1 with writeMark := some 6 }))
     (h.now, h.scheduler.banks.head?)) = (6, some (openBank 1)) := by decide +kernel

/-! ### The data lane -/

/-- A READ of 12 words from word 9 of a segment, as in the worked example of chapter 8, and a WRITE of two words. -/
def twelveWords : Entry := { aRead with addr := 72, words := 12 }

/-- A hub whose bank 0 is OPEN at row 0, with one entry. -/
def openFor (e : Entry) : Hub := withBank { serving with table := [e] } (openBank 0)

/-- R46, R48: the lane free for a READ and a WRITE that may start, and for an ACTIVE entry at its last word. -/
theorem witness_column_commands :
    (Running (idle (openFor twelveWords)) ∧ (openFor twelveWords).grant = some twelveWords ∧ twelveWords.kind = .read ∧
      twelveWords.addr + twelveWords.wordsDone * 8 + 7 * 8 ≤ 8 * 2 ^ 14 * 2048) ∧
    (Running (idle (openFor aWrite)) ∧ (openFor aWrite).grant = some aWrite ∧ aWrite.kind = .write) ∧
    (let e := { twelveWords with phase := .active, wordsDone := 11 }
     (openFor e).grant = some e ∧ e.activeUnmarked = true) ∧
    (let e := { aRead with addr := 8 * 2 ^ 14 * 2048 }
     (openFor e).grant = some e ∧ 8 * 2 ^ 14 * 2048 < e.addr + e.words * 8) := by
  refine ⟨⟨rfl, ?_⟩, ⟨rfl, ?_⟩, ?_⟩ <;> decide +kernel

/-- R46: at most one entry is ACTIVE. -/
theorem witness_one_active : OneActiveLaw (openFor { twelveWords with phase := .active }) ∧ OneActiveLaw (openFor aRead) := by
  unfold OneActiveLaw IndexLaw
  decide +kernel

/-- R47: the burst cut of the worked example: words 9 to 15, then 16 to 20; and the ends of the ranges. -/
theorem test_burst_words :
    twelveWords.burstWords = 7 ∧ { twelveWords with wordsDone := 7 }.burstWords = 5 ∧
      { aRead with words := 32 }.burstWords = 8 ∧ { aRead with addr := 248 }.burstWords = 1 := by decide +kernel

/-- R47: entries with words left that lie within their segment. -/
theorem witness_bursts :
    (twelveWords.wordsDone < twelveWords.words ∧ twelveWords.addr % 256 / 8 + twelveWords.words ≤ 32) ∧
    (let e := { aRead with words := 32, wordsDone := 31 }
     e.wordsDone < e.words ∧ e.addr % 256 / 8 + e.words ≤ 32) := by decide +kernel

/-- R29: the two ends of the memory at the defaults. -/
theorem witness_address_map :
    0 < Params.default.banks ∧ (∃ n, 0 < n ∧ Params.default.page = 256 * n) ∧
      0 < Params.default.banks * 2 ^ Params.default.rowBits * Params.default.page ∧
      0x0FFFFFFF < Params.default.banks * 2 ^ Params.default.rowBits * Params.default.page :=
  ⟨by decide, ⟨8, by decide, by decide⟩, by decide, by decide⟩

/-- R34, R48: a COL_READ of 7 words takes READ_LATENCY 3 + 7 periods; the first burst on an OPEN row is a row hit. -/
theorem test_col_read :
    (let h := run (.colRead 0) (idle (openFor twelveWords))
     h.scheduler.burst = some ⟨0, .read, 0, 72, 7, 10, []⟩ ∧ h.table.map Entry.phase = [.active] ∧ h.scheduler.hits = 1 ∧
       h.dram.issued = [.colRead 0 0 9 7]) := by decide +kernel

/-- R34, R146: a COL_WRITE of one word takes one period and has the word of the buffer. -/
theorem test_col_write :
    (run (.colWrite 0) (idle (openFor aWrite))).scheduler.burst =
      some ⟨0, .write, 0, 0, 1, 1, [0x0102030405060708]⟩ := by decide +kernel

/-- A hub with a burst of entry 0 in flight until 11. -/
def bursting (e : Entry) (words : Nat) (data : List Word) : Hub :=
  let h := openFor { e with phase := .active }
  { h with scheduler := { h.scheduler with burst := some ⟨0, e.kind, 0, e.addr, words, 11, data⟩ } }

/-- R48: a READ burst in flight for an entry, aborting or not, with and without words left; a WRITE burst. -/
theorem witness_burst_completes :
    (let h := bursting twelveWords 7 []
     Running (idle h) ∧ h.scheduler.burst = some ⟨0, .read, 0, 72, 7, 11, []⟩ ∧
       h.entry 0 = some { twelveWords with phase := .active }) ∧
    (let h := bursting { aRead with aborting := some .answered } 1 []
     Running (idle h) ∧ h.scheduler.burst = some ⟨0, .read, 0, 0, 1, 11, []⟩ ∧
       h.entry 0 = some { aRead with phase := .active, aborting := some .answered }) ∧
    (let h := bursting aWrite 1 [0x0102030405060708]
     Running (idle h) ∧ h.scheduler.burst = some ⟨0, .write, 0, 0, 1, 11, [0x0102030405060708]⟩ ∧
       h.entry 0 = some { aWrite with phase := .active } ∧ h.scheduler.banks[0]? = some (openBank 0)) := by
  refine ⟨⟨rfl, ?_⟩, ⟨rfl, ?_⟩, ⟨rfl, ?_⟩⟩ <;> decide +kernel

/-- R15, R16: the last word of the READ is read: its entry is DONE and its reply pending. -/
theorem test_col_read_complete :
    (let h := run (.colReadComplete []) (idle (bursting aRead 1 []))
     h.now = 11 ∧ h.scheduler.burst = none ∧ h.table.map Entry.phase = [.done] ∧ (h.layer 0).replies = [.entry 1 0]) := by
  decide +kernel

/-- R48: with words left the READ stays ACTIVE. -/
theorem test_col_read_goes_on :
    ((run (.colReadComplete []) (idle (bursting twelveWords 7 []))).table.map (fun e => (e.phase, e.wordsDone))) =
      [(.active, 7)] := by decide +kernel

/-- R33, R34, R153: the word's bytes lie least significant first, the recovery mark is 11 + T_WRITE_RECOVER 4, and the entry
is DONE. -/
theorem test_col_write_complete :
    (let h := run .colWriteComplete (idle (bursting aWrite 1 [0x0102030405060708]))
     h.dram.data = [(0, 8), (1, 7), (2, 6), (3, 5), (4, 4), (5, 3), (6, 2), (7, 1)] ∧
       h.scheduler.banks.map Bank.writeMark = some 15 :: List.replicate 7 none ∧ h.table.map Entry.phase = [.done]) := by
  decide +kernel

/-! ### Channel-wide commands, upkeep and leases' timers -/

/-- A hub with a channel-wide command in flight until 40. -/
def flying (h : Hub) (c : ChannelCommand) : Hub := { h with scheduler := { h.scheduler with flight := some ⟨c, 40⟩ } }

/-- A hub in bring-up in a phase, with `n` UPKEEPs left. -/
def bringing (phase : BringupPhase) (n : Nat) : Hub :=
  ({ settling with config := { settling.config with bringup := some ⟨phase, 1000, n, 0, 9, false, false⟩ } }).settle

/-- A hub in ENTERING with every vote set and its items presented. -/
def entering : Hub :=
  ({ serving with channel := .entering, rest := { serving.rest with votes := Quad.all true } }).settle

/-- A hub in LEAVING at a step, the memory in retention or not. -/
def leaving (step : LeavingStep) (retention : Bool) : Hub :=
  ({ serving with
      channel := .leaving
      rest := { serving.rest with leaving := some step }
      dram := { serving.dram with retention := retention } }).settle

/-- R35: each channel-wide command demanded with its conditions met, and each in flight. -/
theorem witness_channel_commands :
    (Running (idle (bringing .close 0)) ∧ (bringing .close 0).scheduler.flight = none ∧
      (bringing .close 0).config.bringupItems.allClose = true ∧ (bringing .close 0).scheduler.burst = none) ∧
    (Running (idle (bringing .mode 0)) ∧ (bringing .mode 0).scheduler.flight = none ∧
      (bringing .mode 0).config.bringupItems.modeLoad = true ∧ ∀ k ∈ (bringing .mode 0).scheduler.banks, k.state = .closed) ∧
    (Running (idle (bringing .burst 1)) ∧ (bringing .burst 1).scheduler.flight = none ∧
      (bringing .burst 1).config.bringupItems.upkeep = true ∧ ∀ k ∈ (bringing .burst 1).scheduler.banks, k.state = .closed) ∧
    (Running (idle entering) ∧ entering.scheduler.flight = none ∧ entering.rest.items.retainEnter = true ∧
      entering.scheduler.burst = none ∧ ∀ k ∈ entering.scheduler.banks, k.state = .closed) ∧
    (Running (idle (leaving .exitWait true)) ∧ (leaving .exitWait true).scheduler.flight = none ∧
      (leaving .exitWait true).rest.items.retainExit = true ∧ (leaving .exitWait true).dram.retention = true) ∧
    (Running (idle (flying settling .allClose)) ∧ (flying settling .allClose).scheduler.flight = some ⟨.allClose, 40⟩) ∧
    (Running (idle (flying settling .modeLoad)) ∧ (flying settling .modeLoad).scheduler.flight = some ⟨.modeLoad, 40⟩) ∧
    (Running (idle (flying serving .retainExit)) ∧ (flying serving .retainExit).scheduler.flight = some ⟨.retainExit, 40⟩) := by
  refine ⟨⟨?_, ?_⟩, ⟨?_, ?_⟩, ⟨?_, ?_⟩, ⟨?_, ?_⟩, ⟨?_, ?_⟩, ⟨rfl, rfl⟩, ⟨rfl, rfl⟩, rfl, rfl⟩ <;>
    first | rfl | decide +kernel

/-- R60, R129, R110: an UPKEEP in flight in SERVING, as the last of BURST and before it, and as the exit UPKEEP. -/
theorem witness_upkeep_complete :
    (Running (idle (flying serving .upkeep)) ∧ (flying serving .upkeep).scheduler.flight = some ⟨.upkeep, 40⟩ ∧
      serving.config.bringup = none ∧ serving.channel ≠ .leaving) ∧
    (∀ n, Running (idle (flying { settling with config := { settling.config with
        bringup := some ⟨.burst, 0, n, 0, 9, false, false⟩ } } .upkeep))) ∧
    (Running (idle (flying (leaving .exitUpkeep false) .upkeep)) ∧ (leaving .exitUpkeep false).config.bringup = none ∧
      (leaving .exitUpkeep false).channel = .leaving ∧ (leaving .exitUpkeep false).rest.leaving = some .exitUpkeep ∧
      (leaving .exitUpkeep false).config.change = none) := by
  refine ⟨⟨rfl, rfl, rfl, by decide⟩, fun _ => rfl, by rfl, ?_⟩
  decide +kernel

/-- R35, R127: ALL_CLOSE takes T_CLOSE, after which MODE_LOAD is demanded. -/
theorem test_all_close :
    (run .allClose (idle (bringing .close 0))).scheduler.flight = some ⟨.allClose, 4⟩ := by decide +kernel

theorem test_all_close_complete :
    (let h := run .allCloseComplete (idle (flying (withBank (bringing .close 0) (openBank 3)) .allClose))
     (h.now, h.scheduler.banks, h.config.bringup.map Bringup.phase)) =
      (40, List.replicate 8 Bank.closedRecord, some .mode) := by decide +kernel

/-- R35: MODE_LOAD takes 16 periods. -/
theorem test_mode_load :
    (run .modeLoad (idle (bringing .mode 0))).scheduler.flight = some ⟨.modeLoad, 16⟩ := by decide +kernel

/-- R128: BURST owes BRINGUP_UPKEEPS 4, and the devices hold READ_LATENCY 3. -/
theorem test_mode_load_complete :
    (let h := run .modeLoadComplete (idle (flying (bringing .mode 0) .modeLoad))
     (h.dram.readLatency, h.config.bringup.map Bringup.upkeepsLeft, h.config.bringupItems.upkeep)) =
      (3, some 4, true) := by decide +kernel

theorem test_upkeep :
    (run .upkeep (idle (bringing .burst 1))).scheduler.flight = some ⟨.upkeep, 40⟩ := by decide +kernel

/-- R128, R129: the last UPKEEP of BURST opens SERVING at 40, loads the interval timer and answers the commit. -/
theorem test_upkeep_complete :
    (let h := run .upkeepComplete (idle (flying (bringing .burst 1) .upkeep))
     h.channel = .serving ∧ h.upkeep.timer = some 1600 ∧ h.config.bringup = none ∧ (h.layer 0).replies = [.commit 9 0] ∧
       h.upkeep.completed = 1) := by decide +kernel

/-- R107: the memory is in retention, and the hosts are told that the channel is RESTING. -/
theorem test_retain_enter :
    (let h := run .retainEnter (idle entering)
     h.channel = .resting ∧ h.dram.retention = true ∧ h.upkeep.timer = none ∧
       (h.layer 2).notices.channelState = some ⟨1, 4, []⟩) := by decide +kernel

/-- R35, R110: RETAIN_EXIT takes RETAIN_EXIT 100 periods. -/
theorem test_retain_exit :
    (run .retainExit (idle (leaving .exitWait true))).scheduler.flight = some ⟨.retainExit, 100⟩ := by decide +kernel

theorem test_retain_exit_complete :
    (let h := run .retainExitComplete (idle (flying (leaving .exitWait true) .retainExit))
     (h.dram.retention, h.rest.leaving, h.rest.items.upkeep)) = (false, some .exitUpkeep, true) := by decide +kernel

/-- The serving hub with a debt and its level. -/
def owing (debt : Nat) : Hub :=
  { serving with upkeep := { serving.upkeep with debt := debt, level := urgencyOf debt } }

/-- R59: the timer of a hub whose debt is 11, and 12. -/
theorem witness_interval_timer : Running (idle (owing 11)) ∧ (owing 11).upkeep.timer = some 1560 ∧ (owing 11).upkeep.debt ≤ 11 ∧
    12 ≤ (owing 12).upkeep.debt ∧ DebtLaw (owing 12) := ⟨rfl, rfl, by decide, by decide, by unfold DebtLaw; decide⟩

/-- R58, R59: the debt rises to 1, and the timer is loaded with 1560 again. -/
theorem test_interval_timer :
    (let h := run .intervalTimerExpiry (idle serving)
     (h.now, h.upkeep.debt, h.upkeep.timer)) = (1560, 1, some 3120) := by decide +kernel

/-- R59, R70: at 12 the expiry is an overrun, of which the holder is told. -/
theorem test_interval_overrun :
    (let h := run .intervalTimerExpiry (idle (owing 12))
     (h.upkeep.debt, h.upkeep.overruns, (h.layer 0).notices.upkeepOverrun)) = (12, 1, some ⟨1, 1, []⟩) := by decide +kernel

/-- R86, R93: a GRANTED lease; a waiting request between two of other tags; a GRANTING lease. -/
theorem witness_lease_timers :
    (let h := withLease serving aLease
     Running (idle h) ∧ SlotsLaw h ∧ (⟨0, 1, some aLease⟩ : LeaseSlot) ∈ h.leases.slots ∧ aLease.phase = .granted 50) ∧
    (let h := withWaits serving [{ aWait with tag := 8 }, aWait, { aWait with port := 3 }]
     Running (idle h) ∧ SlotsLaw h ∧ h.leases.waits = [{ aWait with tag := 8 }] ++ aWait :: [{ aWait with port := 3 }] ∧
       ∀ v ∈ [{ aWait with tag := 8 }] ++ [{ aWait with port := 3 }], ¬ (v.port = aWait.port ∧ v.tag = aWait.tag)) ∧
    (let l : Lease := { aLease with phase := .granting 10 20 [0] 9 }
     let h := withLease serving l
     Running (idle h) ∧ SlotsLaw h ∧ (⟨0, 1, some l⟩ : LeaseSlot) ∈ h.leases.slots ∧ l.phase = .granting 10 20 [0] 9 ∧
       (∀ w ∈ h.leases.waits, ¬ (w.port = l.owner ∧ w.tag = 9)) ∧
       ∀ y ∈ h.leases.slots, y.lease.isSome = true → y.id = 0) := by
  refine ⟨⟨rfl, rfl, ?_⟩, ⟨rfl, rfl, ?_⟩, rfl, rfl, ?_⟩ <;> decide +kernel

/-- R93: at 50 ms the lease is gone, the lapse is counted, and P1 is told with the handle. -/
theorem test_lease_expiry :
    (let h := run (.leaseExpiry 0) (idle (withLease serving aLease))
     h.now = 20000000 ∧ h.leases.slots.head? = some ⟨0, 1, none⟩ ∧ h.leases.lapses = 1 ∧
       (h.layer 1).notices.leaseLapsed = some ⟨1, 0, [⟨0, 1⟩]⟩) := by decide +kernel

/-- R86: at 60 ms the waiting request is answered TIMEOUT. -/
theorem test_wait_deadline :
    (let h := run (.waitDeadline 2 9) (idle (withWaits (withLease serving { aLease with phase := .granted 90 }) [aWait]))
     (h.now, h.leases.waits, (h.layer 2).replies)) = (24000000, [], [.leaseEnd 9 .timeout 0]) := by decide +kernel

/-- R86: a lease that still drains two entries leaves its slot with detail 2. -/
theorem test_wait_deadline_draining :
    (let h := run (.waitDeadline 1 9) (idle (withLease serving { aLease with phase := .granting 10 20 [0, 3] 9 }))
     (h.leases.slots.head?, (h.layer 1).replies)) = (some ⟨0, 1, none⟩, [.leaseEnd 9 .timeout 2]) := by decide +kernel

/-! ### The end of an event, frames, words -/

/-- R105, R108, R112: the cases of `EveryEventEndsWithTheEntryCondition`: a hub in SERVING that wants rest and one that does
not, one in ENTERING that is abandoned, free to leave and not. -/
theorem witness_end_of_event :
    (let voted := { serving with rest := { serving.rest with votes := Quad.all true } }
     voted.channel = .serving ∧ (∀ p, (voted.link p).state = .up → voted.rest.votes.get p = true) ∧ voted.table = [] ∧
       voted.config.change = none) ∧
    (serving.channel = .serving ∧ ¬ ∀ p, (serving.link p).state = .up → serving.rest.votes.get p = true) ∧
    (entering.channel = .entering ∧ entering.rest.abandoning = false ∧
      (∀ p, (entering.link p).state = .up → entering.rest.votes.get p = true)) ∧
    (let h := { entering with rest := { entering.rest with abandoning := true } }
     h.channel = .entering ∧ h.rest.abandoning = true ∧ h.config.change = none ∧ h.scheduler.inFlight .upkeep = false ∧
       (flying h .upkeep).scheduler.inFlight .upkeep = true) ∧
    (serving.channel ≠ .entering ∧ (bringing .mode 0).channel ≠ .serving ∧ (bringing .mode 0).channel ≠ .entering) := by
  decide +kernel

/-- R50: an event at whose end a close-all demand is newly presented, one at whose end the last is withdrawn, and one at whose
end it stands as before; R175: the room timer of a link starts, goes on and stops. -/
theorem witness_presented :
    (let before : Hub := { serving with channel := .entering, rest := { serving.rest with votes := Quad.all true } }
     before.rest.items.closeAll = false ∧ before.settle.rest.items.closeAll = true ∧
       entering.settle.rest.items.closeAll = true ∧
       ({ entering with channel := .serving, rest := { entering.rest with votes := Quad.all false } } : Hub).settle.closeAll =
         false) ∧
    (let l : Link := { upLink with outbound := [aReply], farRoom := 0 }
     ((withLink l).settle.link 0).roomTimer = some 12800 ∧
       ((withLink { l with roomTimer := some 7 }).settle.link 0).roomTimer = some 7 ∧
       ((withLink { l with farRoom := 1, roomTimer := some 7 }).settle.link 0).roomTimer = none) := by decide +kernel

/-- A RESTING hub with a READ held by CHANNEL. -/
def resting : Hub :=
  { serving with
    channel := .resting
    upkeep := UpkeepUnit.powerUp
    table := [{ aRead with phase := .held, holds := { Holds.none with channel := true } }] }

/-- R11, R12, R104, R129: SERVING clears the CHANNEL hold, queues what nothing else holds and answers the deferred WAKEs. -/
theorem test_become_serving :
    (let held (lease : Bool) : Entry :=
       { aRead with phase := .held, holds := { Holds.none with channel := true, lease := lease } }
     let h : Hub := { resting with table := [held false, held true], rest := { resting.rest with wakes := [(2, 8)] } }
     let g := h.becomeServing
     g.table.map (fun e => (e.phase, e.holds.channel)) = [(.queued, false), (.held, false)] ∧
       (g.layer 2).replies = [.wake 8] ∧ g.rest.wakes = []) := by decide +kernel

/-- R153: payloads of 0 and 272 bytes, rooms of 0 and 4. -/
theorem witness_frames :
    ([] : List Byte).length ≤ 272 ∧ (List.replicate 272 (0 : Byte)).length ≤ 272 ∧ 0 ≤ 4 ∧ 4 ≤ 4 := by decide +kernel

/-- R146: aligned addresses, and words with bytes before and after them. -/
theorem witness_stored_words : 8 % 8 = 0 ∧ ([1, 2] : List Word)[1]? = some 2 ∧ 7 < 8 ∧ 8 + 8 * ([1, 2] : List Word).length ≤ 24 := by
  decide

/-- R147: two different bits among the 72, at the ends of the data bits and of the code bits. -/
theorem witness_flipped_bits : (0 : Fin 72) ≠ 63 ∧ (64 : Fin 72) ≠ 71 := by decide

/-- R147: no outcome is shut out: a word that has not flipped, and a word that has. -/
theorem witness_flips : (0 : BitVec 72) = 0 ∧ (1 : BitVec 72) ≠ 0 := by decide

/-! ### The laws: a hub with work in progress meets each, and a step of it answers a next state -/

/-- A SOLE lease of P1 on the second segment, GRANTING until it has drained entry 3, or until 60 ms. -/
def drainingLease : Lease := ⟨1, 0x100, 256, .sole, .granting 50 60 [3] 5⟩

/-- P0 reads 9 words, its first burst in flight; a WRITE of P0 waits for it; a READ of P2 waits for a lease of P1, and so
does a lease request of P2; a READ of P3 is DONE, and a lease that P1 has asked for drains it. P2 and P3 hold GUARD leases on
one segment. The link of P0 has frames to be acknowledged. -/
def busy : Hub :=
  let reading := { aRead with words := 9, phase := .active }
  let following := { aWrite with index := 1, tag := 2, phase := .held, holds := { Holds.none with order := some 0 } }
  let leased := { aRead with index := 2, port := 2, tag := 3, addr := 0x1000, phase := .held, holds := { Holds.none with lease := true } }
  let finished := { aRead with index := 3, port := 3, tag := 4, addr := 0x100, bank := 1, phase := .done, wordsDone := 1, buffer := [0] }
  let h := withBank { serving with table := [reading, following, leased, finished] } (openBank 0)
  let slots := (((h.leases.slots.set 0 ⟨0, 1, some { aLease with base := 0x1000 }⟩).set 1
    ⟨1, 1, some ⟨2, 0x2000, 256, .guarded, .granted 40⟩⟩).set 2 ⟨2, 1, some ⟨3, 0x2000, 256, .guarded, .granted 40⟩⟩).set 3
    ⟨3, 1, some drainingLease⟩
  let tags (l : List Byte) : MessageLayer := { MessageLayer.powerUp with tags := l }
  ({ h with
      links := h.links.set 0 sendingLink
      messages := ⟨tags [1, 2], tags [5], tags [3, 9], tags [4]⟩
      scheduler := { h.scheduler with burst := some ⟨0, .read, 0, 0, 8, 11, []⟩ }
      leases := { h.leases with slots := slots, waits := [{ aWait with base := 0x1000 }] }
      dram := { h.dram with data := [(0, 1), (7, 2)], codes := [(0, 3)] } }).defer 3 (.entry 4 3)

/-- A step on a command of each of three kinds answers a next state, whatever the hub. -/
theorem some_steps (h : Hub) : (∃ t, step ⟨h, [.intervalTimerExpiry]⟩ = .next t) ∧
    (∃ t, step ⟨h, [.upkeepComplete]⟩ = .next t) ∧ (∃ t, step ⟨h, [.wake 0]⟩ = .next t) ∧
    ∃ t, exec (.colReadComplete [0]) ⟨h, []⟩ = .next t :=
  ⟨perform_completes ⟨h, []⟩ Hub.intervalExpiry, perform_completes ⟨h, []⟩ Hub.completeUpkeep,
    perform_completes ⟨h, []⟩ (fun h => h.takeWake 0), perform_completes ⟨h, []⟩ (fun h => h.completeRead [0])⟩

/-- A step of the busy hub answers a next state. -/
theorem busy_steps : ∃ t, step ⟨busy, [.intervalTimerExpiry]⟩ = .next t := (some_steps busy).1

theorem busy_memory : MemoryLaw busy := by unfold MemoryLaw; decide +kernel
theorem busy_debt : DebtLaw busy := by unfold DebtLaw; decide +kernel
theorem busy_items : ItemsLaw busy := by unfold ItemsLaw; decide +kernel
theorem busy_role : RoleLaw busy := by unfold RoleLaw; decide +kernel
theorem busy_bounds : BoundsLaw busy := by unfold BoundsLaw; decide +kernel
theorem busy_indices : IndexLaw busy := by unfold IndexLaw; decide +kernel
theorem busy_one_active : OneActiveLaw busy := ⟨busy_indices, by decide +kernel⟩
theorem busy_windows_apart : WindowsApart busy := windows_apart rfl

theorem busy_quota : QuotaLaw busy :=
  ⟨busy_indices, by decide +kernel, by decide +kernel, fun _ _ _ h => by cases h⟩

theorem busy_windows_inside : WindowsInside busy := by
  refine ⟨fun p w r e => ?_, fun _ _ _ h => by cases h⟩
  rw [((enabled_power_up rfl).1 e).2]
  decide +kernel

/-- R35: a hub with an UPKEEP in flight. -/
theorem witness_upkeep_law : UpkeepLaw (flying serving .upkeep) ∧ (flying serving .upkeep).scheduler.inFlight .upkeep = true ∧
    ∃ t, step ⟨flying serving .upkeep, [.upkeepComplete]⟩ = .next t :=
  ⟨by unfold UpkeepLaw; decide +kernel, by decide +kernel, (some_steps _).2.1⟩

/-- R52, R107: the law of rest, and a step of the RESTING hub. -/
theorem witness_resting_law : RestingLaw resting ∧ ∃ t, step ⟨resting, [.wake 0]⟩ = .next t :=
  ⟨by unfold RestingLaw ItemsLaw; decide +kernel, (some_steps _).2.2.1⟩

/-- The leases of the busy hub. -/
theorem busy_standing {l : Lease} (s : Standing busy l) :
    l = { aLease with base := 0x1000 } ∨ l = ⟨2, 0x2000, 256, .guarded, .granted 40⟩ ∨
      l = ⟨3, 0x2000, 256, .guarded, .granted 40⟩ ∨ l = drainingLease := by
  obtain ⟨x, hx, hl⟩ := s
  have all : ∀ x ∈ busy.leases.slots, x.lease = none ∨ x.lease = some { aLease with base := 0x1000 } ∨
      x.lease = some ⟨2, 0x2000, 256, .guarded, .granted 40⟩ ∨ x.lease = some ⟨3, 0x2000, 256, .guarded, .granted 40⟩ ∨
      x.lease = some drainingLease := by
    decide +kernel
  have := all x hx
  rw [hl] at this
  simpa using this

theorem busy_leases_apart : LeasesApart busy := by
  intro k l hk hl
  rcases busy_standing hk with rfl | rfl | rfl | rfl <;> rcases busy_standing hl with rfl | rfl | rfl | rfl <;> decide

theorem busy_wait_law : WaitLaw busy := by
  refine ⟨rfl, fun earlier w later e => ?_⟩
  have : earlier = [] ∧ w = { aWait with base := 0x1000 } := by
    cases earlier with
    | nil => exact ⟨rfl, (List.cons.inj e).1.symm⟩
    | cons a rest => exact absurd (congrArg List.length e) (by simp [busy, Hub.defer, Hub.onMessages])
  obtain ⟨rfl, rfl⟩ := this
  exact .inl ⟨{ aLease with base := 0x1000 }, ⟨⟨0, 1, _⟩, by decide +kernel, rfl⟩, by decide⟩

theorem busy_entry_law : EntryLaw busy where
  indices := busy_indices
  burst x e := by
    obtain rfl := Option.some.inj e
    exact ⟨{ aRead with words := 9, phase := .active }, by decide +kernel, rfl, rfl, rfl⟩
  aborting e he := by
    have none_marked : ∀ e ∈ busy.table, e.aborting = none := by decide +kernel
    exact fun h => absurd (none_marked e he) h
  replies p t i h := by
    have all : ∀ p, ∀ r ∈ (busy.layer p).replies, r = .entry 4 3 ∧ p = 3 := by decide +kernel
    obtain ⟨e, rfl⟩ := all p _ h
    cases e
    exact ⟨busy.table[3], List.getElem_mem _, rfl, rfl, rfl, rfl⟩
  once := by decide +kernel

theorem busy_order_law : OrderLaw busy := by
  intro ahead e behind h
  have at_place : busy.table[ahead.length]? = some e ∧ ahead = busy.table.take ahead.length := by simp [h]
  have all : ∀ n < 4, ∀ e ∈ busy.table[n]?,
      (e.phase = .held → e.holds.order = predecessorAmong (busy.table.take n) e) ∧
        (e.phase = .queued ∨ e.phase = .active → predecessorAmong (busy.table.take n) e = none) := by decide +kernel
  have small : ahead.length < 4 := (List.getElem?_eq_some_iff.1 at_place.1).1
  rw [at_place.2]
  exact all _ small e at_place.1

theorem busy_grant_law : GrantLaw busy := by
  refine ⟨rfl, fun l s e he c => ?_⟩
  rcases busy_standing s with rfl | rfl | rfl | rfl
  · exact .inl (by revert e; decide +kernel)
  · exact .inl (by revert e; decide +kernel)
  · exact .inl (by revert e; decide +kernel)
  · exact .inr ⟨50, 60, [3], 5, rfl, by revert e; decide +kernel⟩

theorem busy_drain_law : DrainLaw busy := by
  refine ⟨rfl, fun l s duration deadline drain tag e => ?_⟩
  rcases busy_standing s with rfl | rfl | rfl | rfl <;> cases e
  decide +kernel

theorem busy_burst_law : BurstLaw busy := by
  refine ⟨by decide +kernel, fun x e => ?_⟩
  obtain rfl := Option.some.inj e
  exact ⟨{ aRead with words := 9, phase := .active }, by decide +kernel, rfl, rfl, openBank 0, rfl, rfl, rfl⟩

theorem busy_bringup_law : BringupLaw busy := ⟨busy_items, fun h => absurd rfl h⟩

/-- R125: a hub in BRINGUP. -/
theorem witness_bringup_law : BringupLaw (bringing .mode 0) ∧ (bringing .mode 0).config.bringup ≠ none := by
  unfold BringupLaw ItemsLaw
  decide +kernel

theorem busy_link_law : LinkLaw busy := by
  intro p
  refine ⟨fun older f newer e => ?_, by revert p; decide +kernel⟩
  have at_place : (busy.link p).replay[older.length]? = some f ∧
      newer.length = (busy.link p).replay.length - older.length - 1 := by simp [e]
  have all : ∀ p, ∀ n < 3, ∀ f ∈ (busy.link p).replay[n]?,
      f.seq + BitVec.ofNat 8 ((busy.link p).replay.length - n - 1) + 1 = (busy.link p).sendSeq := by decide +kernel
  have few : ∀ p, (busy.link p).replay.length ≤ 3 := by decide +kernel
  rw [at_place.2]
  exact all p _ (Nat.lt_of_lt_of_le (List.getElem?_eq_some_iff.1 at_place.1).1 (few p)) f at_place.1

theorem busy_tag_law : TagLaw busy := by
  have same : ∀ p, (busy.layer p).tags.Perm (outstanding busy p) := by decide +kernel
  have fences : ∀ p, ∀ r ∈ (busy.layer p).replies, r = .entry 4 3 := by decide +kernel
  exact fun p => ⟨by revert p; decide +kernel, fun t => (same p).mem_iff, by revert p; decide +kernel,
    fun t h => by cases fences p _ h⟩

/-- R22, R96, R158: of the entries of the busy hub three have no burst in flight; a fence that waits for one of them. -/
theorem witness_aborts :
    EntryLaw busy ∧ TagLaw busy ∧ SlotsLaw busy ∧
    (∃ e ∈ busy.table, ∀ x, busy.scheduler.burst = some x → x.entry ≠ e.index) ∧
    (let h := busy.onMessages 0 (fun m => { m with fences := [⟨6, [0, 1]⟩] })
     ∃ f ∈ (h.layer 0).fences, f.tag = 6) :=
  ⟨busy_entry_law, busy_tag_law, rfl, ⟨busy.table[1], List.getElem_mem _, by rintro x ⟨⟩; decide⟩,
    ⟨_, List.mem_singleton.2 rfl, rfl⟩⟩

/-- R17, R83, R84: the table of the busy hub without entry 3 splits around each of its entries; its lease in slot 3 drains
that entry; a GRANTING lease that has drained its entries, one that has not, a GRANTED one and a free slot. -/
theorem witness_freeing :
    (SlotsLaw busy ∧ busy.table.filter (fun e => decide (e.index ∉ [3])) = busy.table.take 1 ++ busy.table[1] :: [busy.table[2]]) ∧
    (busy.leases.slots[3]? = some ⟨3, 1, some drainingLease⟩ ∧ drainingLease.phase = .granting 50 60 [3] 5) ∧
    (let l : Lease := { drainingLease with phase := .granting 50 60 [] 5 }
     SlotsLaw (withLease serving l) ∧ (⟨0, 1, some l⟩ : LeaseSlot) ∈ (withLease serving l).leases.slots ∧
       l.phase = .granting 50 60 [] 5) ∧
    (SlotsLaw (withLease serving aLease) ∧ (⟨0, 1, some aLease⟩ : LeaseSlot) ∈ (withLease serving aLease).leases.slots ∧
      (∀ duration deadline tag, aLease.phase ≠ .granting duration deadline [] tag) ∧
      (⟨1, 0, none⟩ : LeaseSlot) ∈ (withLease serving aLease).leases.slots) := by
  refine ⟨⟨rfl, by decide +kernel⟩, ⟨rfl, rfl⟩, ⟨rfl, by decide +kernel, rfl⟩, rfl, by decide +kernel, ?_, by decide +kernel⟩
  rintro _ _ _ ⟨⟩

/-- R163, R164: the records of the busy hub: an enabled window, a GRANTED and a GRANTING lease among the occupied slots, a
waiting request, a bank; and a staged pair. -/
theorem witness_records :
    Enabled busy 0 0 ⟨0, 0x10000000, 0, true, true⟩ ∧
    (let occupied := busy.leases.slots.filter (fun x => x.lease.isSome)
     occupied[0]? = some ⟨0, 1, some { aLease with base := 0x1000 }⟩ ∧ occupied[3]? = some ⟨3, 1, some drainingLease⟩) ∧
    busy.leases.waits[0]? = some { aWait with base := 0x1000 } ∧ busy.scheduler.banks[0]? = some (openBank 0) ∧
    (staging busy { Params.default with rowBits := 15 }).config.stagedPairs[0]? = some (2, 15) := by
  refine ⟨rfl, ?_⟩
  decide +kernel

/-- R163: the LEASES record of the busy hub names its four leases, the last GRANTING, draining entry 3. -/
theorem test_leases_record :
    (busy.record 2 0).take 2 = [2, 4] ∧
      (busy.record 2 0).drop 50 = [3, 1, 1, 0, 1, 0, 0, 1, 0, 0, 60, 0, 8, 0, 0, 0] := by decide +kernel

/-- R21: a hub whose one entry carries the aborting mark, for the statements on aborts and on the laws. -/
theorem witness_aborting_entry_law : EntryLaw (bursting { twelveWords with aborting := some .answered } 7 []) where
  indices := by unfold IndexLaw; decide +kernel
  burst x e := by
    obtain rfl := Option.some.inj e
    exact ⟨{ twelveWords with phase := .active, aborting := some .answered }, by decide +kernel, rfl, rfl, rfl⟩
  aborting e he _ := by
    obtain rfl : e = { twelveWords with phase := .active, aborting := some .answered } := by
      revert e
      decide +kernel
    exact ⟨rfl, _, rfl, rfl⟩
  replies p t i h := by
    have all : ∀ p, ((bursting { twelveWords with aborting := some .answered } 7 []).layer p).replies = [] := by decide +kernel
    rw [all p] at h
    cases h
  once := by decide +kernel

/-- A command that is none of those that the statement on memory and control state names, and each of the clauses'
exceptions is another one; it answers a next state. -/
theorem witness_named_commands :
    (∃ t, exec (.colReadComplete [0]) (idle (bursting aRead 1 [])) = .next t) ∧ (∀ f ∈ ([0] : List (BitVec 72)), f = 0) ∧
      ∀ p f, Instr.colReadComplete [0] ≠ .resetLineAsserted ∧ Instr.colReadComplete [0] ≠ .resetLineReleased ∧
        Instr.colReadComplete [0] ≠ .colWriteComplete ∧ Instr.colReadComplete [0] ≠ .commitCopy ∧
        Instr.colReadComplete [0] ≠ .resetEvent ∧ Instr.colReadComplete [0] ≠ .configSet p ∧
        Instr.colReadComplete [0] ≠ .windowSet p ∧ Instr.colReadComplete [0] ≠ .claim p ∧
        Instr.colReadComplete [0] ≠ .handover p ∧ Instr.colReadComplete [0] ≠ .replayTimerExpiry p ∧
        Instr.colReadComplete [0] ≠ .alignReceived p f ∧ ∀ x, Instr.colReadComplete [0] ≠ .corruptFrame p x :=
  ⟨(some_steps _).2.2.2, by simp, by simp⟩

/-! ### What the shared operations do: the hypotheses of their clauses, and what they give -/

theorem busy_lease_hold_law : LeaseHoldLaw busy := by
  refine ⟨rfl, fun e he _ hl => ?_⟩
  have only : ∀ e ∈ busy.table, e.holds.lease = true → e = busy.table[2] := by decide +kernel
  obtain rfl := only e he hl
  exact ⟨{ aLease with base := 0x1000 }, ⟨⟨0, 1, _⟩, by decide +kernel, rfl⟩, by decide +kernel⟩

/-- The lists of message layers that the clauses on aborts speak of exist. -/
theorem witness_message_layers (f : Port → MessageLayer) : ∃ m : Quad MessageLayer, ∀ p, m.get p = f p :=
  ⟨⟨f 0, f 1, f 2, f 3⟩, fun p => match p with
    | 0 => rfl
    | 1 => rfl
    | 2 => rfl
    | 3 => rfl⟩

/-- R38: of a QUEUED, a HELD, a DONE, an aborting and an ACTIVE entry of bank 0 and a QUEUED one of bank 1, the first and the
ACTIVE one are eligible in bank 0, and the ACTIVE one is its candidate; there is no bank 8. -/
theorem witness_eligible :
    (let e (i : Index) (phase : Phase) : Entry := { aRead with index := i, phase := phase }
     let h : Hub := { withBank serving (openBank 0) with
       table := [e 0 .queued, e 1 .held, e 2 .done, { e 3 .active with aborting := some .silent }, e 4 .active,
         { e 5 .queued with bank := 1 }] }
     h.scheduler.banks[0]? = some (openBank 0) ∧ h.scheduler.banks[8]? = none ∧
       (h.eligible 0).map Entry.index = [0, 4] ∧ (h.candidate 0).map Entry.index = some 4) := by decide +kernel

/-- R88: of three entries HELD with LEASE, one still conflicts with the lease, one does not, and one has a CHANNEL hold too. -/
theorem test_recheck :
    (let held (addr : Nat) (channel : Bool) : Entry :=
       { aRead with addr := addr, phase := .held, holds := { Holds.none with lease := true, channel := channel } }
     let h := ({ withLease serving aLease with table := [held 0 false, held 256 false, held 256 true] } : Hub).recheck
     h.table.map (fun e => (e.phase, e.holds.lease)) = [(.held, true), (.queued, false), (.held, false)]) := by decide +kernel

/-- R154: a request of each kind whose fields fit its layout, at the ends of their ranges. -/
theorem witness_requests :
    (∀ r ∈ [Request.read 7 0 255 0xFFFFFFFF, .write 7 1 0 8 [0x0102030405060708], .write 7 32 0 0 (List.replicate 32 0),
        .fence 7 0xFFFF, .leaseTake 7 1 1 0x100 0x200 10 60, .leaseDrop 7 15 3 0, .leaseRenew 7 15 3 0xFFFF 0, .rest 7 0,
        .wake 7 0, .query 7 255 3, .configSet 7 0 [⟨2, 0, 14⟩], .configSet 7 0 (List.replicate 16 ⟨1, 0, 8⟩),
        .configCommit 7 1 0, .windowSet 7 3 3 1 3 0 0 0x80000000 0x100, .handover 7 3 0, .claim 7 0, .hubReset 7 0],
      parseRequest (requestBytes r) = some r) ∧
    requestFits (.write 7 1 0 8 [0x0102030405060708]) ∧ requestFits (.configSet 7 0 (List.replicate 16 ⟨1, 0, 8⟩)) := by
  exact ⟨by decide +kernel, ⟨by decide, by decide, rfl, by decide, by decide⟩, by decide, by decide, by decide, by decide +kernel⟩

/-- R154: a READ and a CONFIG_SET written out; one byte less, no request; R156: its tag is the byte as received, or 0. -/
theorem test_request_layouts :
    requestBytes (.read 7 2 0 0x1234) = [0x10, 7, 2, 0, 0x34, 0x12, 0, 0] ∧
      requestBytes (.configSet 7 0 [⟨3, 0, 0x1000⟩]) = [0x50, 7, 0, 0, 3, 0, 0, 0x10] ∧
      parseRequest [0x10, 7, 2, 0, 0x34, 0x12, 0] = none ∧ malformedTag [0x10, 7, 2] = 7 ∧ malformedTag [0x10] = 0 := by
  decide +kernel

/-- R155: a REPLY whose detail exceeds 0xFFFF, and a LEASE_LAPSED NOTICE with one handle. -/
theorem test_message_layouts :
    (OutMessage.reply ⟨7, .full, 0x12345, []⟩).bytes = [0x80, 7, 13, 0, 0xFF, 0xFF] ∧
      (OutMessage.notice .leaseLapsed ⟨2, 0, [⟨3, 12⟩]⟩).bytes = [0x81, 3, 2, 1, 0, 0, 3, 12] := by decide +kernel

/-- R156, R162: a refusal is counted, an OK is not; both join the tail. -/
theorem test_answer :
    (let h := (serving.refuse 1 7 .full 8).accept 1 8
     (replies h 1, (h.layer 1).refusals, replies h 0)) = ([(7, .full, 8), (8, .ok, 0)], 1, []) := by decide +kernel

/-- R89: a request that finds no free slot, one in conflict with a lease, one behind a request of another port that has stayed,
and one that is placed in the lowest free slot. -/
theorem witness_scan :
    (∀ x ∈ (fullTable serving).leases.slots, x.lease ≠ none) ∧
    someLease (withLease serving aLease) (fun l => l.conflictsWithRequest aWait.port aWait.mode aWait.base aWait.length) = true ∧
    (∃ v ∈ [{ aWait with port := 3 }], v.port ≠ aWait.port ∧ rangesOverlap v.base v.length aWait.base aWait.length = true) ∧
    (let h := withLease serving { aLease with base := 0x1000 }
     SlotsLaw h ∧ (¬ ∀ x ∈ h.leases.slots, x.lease ≠ none) ∧
       someLease h (fun l => l.conflictsWithRequest aWait.port aWait.mode aWait.base aWait.length) = false ∧
       (⟨1, 0, none⟩ : LeaseSlot) ∈ h.leases.slots ∧ ∀ y ∈ h.leases.slots, y.lease = none → 1 ≤ y.id) := by
  refine ⟨by decide +kernel, by decide +kernel, ⟨_, List.mem_singleton.2 rfl, by decide, by decide⟩, rfl, ?_⟩
  decide +kernel

/-- R82, R84, R89: the first request drains the READ of P0 in slot 1; the second, of another segment, is granted in slot 2 until
10 ms, and its reply is deferred; the third waits for the first lease. -/
theorem test_scan :
    (let ws : List Waiting := [aWait, { aWait with port := 3, tag := 8, base := 0x2000 }, { aWait with port := 0, tag := 6 }]
     let h := (withWaits { withLease serving { aLease with base := 0x1000 } with table := [aRead] } ws).scanWaits
     h.leases.slots.map LeaseSlot.lease |>.take 3) =
      [some { aLease with base := 0x1000 }, some ⟨2, 0, 256, .sole, .granting 10 60 [0] 9⟩,
        some ⟨3, 0x2000, 256, .sole, .granted 10⟩] ∧
    (let ws : List Waiting := [aWait, { aWait with port := 3, tag := 8, base := 0x2000 }, { aWait with port := 0, tag := 6 }]
     let h := (withWaits { withLease serving { aLease with base := 0x1000 } with table := [aRead] } ws).scanWaits
     (h.leases.waits.map Waiting.tag, (h.layer 3).replies, h.leases.grants)) = ([6], [.leaseGrant 8 ⟨2, 1⟩ 10], 1) := by
  decide +kernel

/-- R177: the busy hub, whose port 0 holds the control role, meets what the clauses on a teardown ask. -/
theorem witness_teardown :
    SlotsLaw busy ∧ IndexLaw busy ∧ busy.config.holder = some 0 ∧ (busy.link 1).state = .up ∧
      Standing busy { aLease with base := 0x1000 } ∧ (∃ e ∈ busy.table, e.port = 0 ∧ e.phase = .active) :=
  ⟨rfl, busy_indices, rfl, rfl, ⟨⟨0, 1, _⟩, by decide +kernel, rfl⟩, ⟨busy.table[0], List.getElem_mem _, rfl, rfl⟩⟩

/-- R25, R119: the teardown of P0 frees its WRITE, marks its READ with the burst in flight, leaves the entries of the others,
and tells P1 that the role is vacant. -/
theorem test_teardown :
    (let h := busy.teardown 0
     (h.table.map (fun e => (e.index, e.phase, e.aborting)), (h.layer 1).notices.controlChanged, (h.layer 0).notices)) =
      ([(0, .active, some .torn), (2, .held, none), (3, .done, none)], some ⟨1, 0xFF, []⟩, NoticeSet.empty) := by
  decide +kernel

/-- R95, R84, R88: the teardown of P1 frees its leases, so the READ of P2 becomes QUEUED, and the scan places the lease
request of P2 in slot 0, where it is granted. -/
theorem test_teardown_releases :
    (let h := busy.teardown 1
     (h.table.map Entry.phase, h.leases.waits, h.leases.slots.map LeaseSlot.lease |>.take 1)) =
      ([.active, .held, .queued, .done], [], [some ⟨2, 0x1000, 256, .sole, .granted 10⟩]) := by decide +kernel

/-- R108: an event at whose end ENTERING is left, and one at whose end it is not. -/
theorem witness_entering_ends :
    (let h := { entering with rest := { entering.rest with abandoning := true } }
     h.channel = .entering ∧ (h.rest.abandoning = true ∨ False) ∧ h.config.change = none ∧
       h.scheduler.inFlight .upkeep = false) ∧
    (entering.rest.abandoning = false ∧ ¬ serving.channel = .entering) := by decide +kernel

/-- R150: bit 1 of a word and bit 0 of its code have flipped; the byte after the word is as it was. -/
theorem test_flip :
    (let d := (((serving.dram.store 8 5 0x10).store 16 9 0x20).flip 8 (BitVec.ofNat 72 (2 ^ 64 + 2)))
     (d.wordAt 8, d.codeAt 8, d.wordAt 16, d.codeAt 16)) = (7, 0x11, 9, 0x20) := by decide +kernel

/-- R8, R9: ranges that touch have no byte in common; of two WRITEs ahead the younger is the predecessor of a READ of their
word, and a READ is none. -/
theorem test_predecessor :
    rangesOverlap 0 8 8 8 = false ∧ rangesOverlap 0 9 8 8 = true ∧
      predecessorAmong [{ aWrite with index := 1 }, { aWrite with index := 2 }, { aRead with index := 3 }] { aRead with index := 4 } =
        some 2 ∧
      predecessorAmong [{ aRead with index := 3 }, { aWrite with phase := .done }] { aRead with index := 4 } = none := by
  decide +kernel

/-- A step with a command in front, and a step on an empty queue, running and held in reset. -/
theorem test_step :
    step ⟨serving, [.resetLineAsserted, .settleEnd]⟩ = exec .resetLineAsserted ⟨serving, [.settleEnd]⟩ ∧
      step (idle serving) = .next (idle { serving with now := 1 }) ∧ step (idle (Hub.inReset 0)) = .next (idle (Hub.inReset 0)) :=
  ⟨rfl, rfl, rfl⟩

end Sys2Proof.Tests
end

section
/-! SUPPORT. Proofs of the statements on READ, WRITE and FENCE (chapter 1). A request is decided in three parts, each with
lemmas of its own: the window that serves its range (R137, R138), the entry it would occupy (R2, R7), and the checks of R5
against the table of Safety.lean. -/

namespace Sys2Proof.Safety

open Sys2Proof.Machine

/-! ### Windows (R136–R138) -/

/-- The items of a record, listed, are those of the four ports. -/
theorem quad_mem_toList {α : Type} {q : Quad α} {x : α} : x ∈ q.toList ↔ ∃ w, q.get w = x := by
  simp [Quad.toList, Fin.exists_fin_succ, Quad.get, eq_comm]

theorem window_contains_iff {r : Window} {addr length : Nat} :
    r.contains addr length = true ↔ r.base ≤ addr ∧ addr + length ≤ r.base + r.size := by simp [Window.contains]

/-- Two enabled windows of one port that contain one range of at least one byte are the same window (R136). -/
theorem containing_windows_agree {h : Hub} {p v w : Port} {r q : Window} {addr length : Nat} (apart : WindowsApart h)
    (pos : 0 < length) (hr : Enabled h p v r) (hq : Enabled h p w q) (cr : r.contains addr length = true)
    (cq : q.contains addr length = true) : r = q := by
  have same : v = w := by
    by_contra ne
    have disjoint := apart p v w r q ne hr hq
    rw [window_contains_iff] at cr cq
    simp only [rangesOverlap, Bool.and_eq_false_iff, decide_eq_false_iff_not] at disjoint
    omega
  subst same
  exact Option.some.inj (hr.symm.trans hq)

/-- The window that the check of R137 finds is the one enabled window that contains the range. -/
theorem containing_window_eq_some_iff {h : Hub} {p : Port} {r : Window} {addr length : Nat} (apart : WindowsApart h)
    (pos : 0 < length) :
    containingWindow (h.windows.get p) addr length = some r ↔ (∃ w, Enabled h p w r) ∧ r.contains addr length = true := by
  have listed (q : Window) : q ∈ (h.windows.get p).toList.filterMap id ↔ ∃ w, Enabled h p w q := by
    simp [quad_mem_toList, Enabled]
  have find_contains {q : Window} (found : containingWindow (h.windows.get p) addr length = some q) :
      q.contains addr length = true := List.find?_some (p := (Window.contains · addr length)) found
  constructor
  · intro found
    exact ⟨(listed r).1 (List.mem_of_find?_eq_some found), find_contains found⟩
  · rintro ⟨⟨w, hr⟩, cr⟩
    have some_found : (containingWindow (h.windows.get p) addr length).isSome = true :=
      List.find?_isSome.2 ⟨r, (listed r).2 ⟨w, hr⟩, cr⟩
    obtain ⟨q, found⟩ := Option.isSome_iff_exists.1 some_found
    obtain ⟨v, hq⟩ := (listed q).1 (List.mem_of_find?_eq_some found)
    rw [found, containing_windows_agree apart pos hq hr (find_contains found) cr]

theorem window_serves_iff {h : Hub} {p : Port} {right : Window → Bool} {addr length : Nat} :
    windowServes h p right addr length = true ↔
      ∃ w r, Enabled h p w r ∧ r.contains addr length = true ∧ right r = true := by
  simp only [windowServes, List.any_eq_true, quad_mem_toList, Enabled, Window.contains]
  constructor
  · rintro ⟨x, ⟨w, hx⟩, hc⟩
    cases x with
    | none => cases hc
    | some r =>
      rw [Bool.and_eq_true] at hc
      exact ⟨w, r, hx, hc.1, hc.2⟩
  · rintro ⟨w, r, hw, hc, hr⟩
    exact ⟨some r, ⟨w, hw⟩, by rw [Bool.and_eq_true]; exact ⟨hc, hr⟩⟩

/-- The check of R138 passes where a window serves the range, and then gives its physical address. -/
theorem translate_for_eq {h : Hub} {p : Port} {kind : Access} {addr length a : Nat} (apart : WindowsApart h)
    (pos : 0 < length) (phys : TranslatesTo h p addr length a) :
    translateFor (h.windows.get p) kind addr length =
      if windowServes h p (fun r => r.grants kind) addr length = true then some a else none := by
  unfold translateFor
  split
  case h_1 r found =>
    obtain ⟨⟨w, hr⟩, cr⟩ := (containing_window_eq_some_iff apart pos).1 found
    have serves : windowServes h p (fun r => r.grants kind) addr length = true ↔ r.grants kind = true := by
      rw [window_serves_iff]
      constructor
      · rintro ⟨v, q, hq, cq, gq⟩
        rwa [containing_windows_agree apart pos hr hq cr cq]
      · intro g
        exact ⟨w, r, hr, cr, g⟩
    have addr_eq : r.translate addr = a := (phys w r hr (window_contains_iff.1 cr).1 (window_contains_iff.1 cr).2).symm
    simp only [serves, addr_eq]
  case h_2 missing =>
    rw [if_neg]
    intro serves
    obtain ⟨w, r, hr, cr, _⟩ := window_serves_iff.1 serves
    rw [(containing_window_eq_some_iff apart pos).2 ⟨⟨w, hr⟩, cr⟩] at missing
    cases missing

/-- The physical address through one enabled window that contains the range is that through every such window. -/
theorem translates_through {h : Hub} {p v : Port} {r : Window} {addr length : Nat} (apart : WindowsApart h)
    (pos : 0 < length) (hr : Enabled h p v r) (low : r.base ≤ addr) (high : addr + length ≤ r.base + r.size) :
    TranslatesTo h p addr length (r.target + (addr - r.base)) := by
  intro w q hq lowq highq
  rw [containing_windows_agree apart pos hr hq (window_contains_iff.2 ⟨low, high⟩) (window_contains_iff.2 ⟨lowq, highq⟩)]

/-! ### The entry of an admitted request (R2, R7, R9–R12) -/

theorem free_index_eq_some_iff {h : Hub} {i : Index} :
    h.freeIndex = some i ↔ (∀ e ∈ h.table, e.index ≠ i) ∧ ∀ j < i, ∃ e ∈ h.table, e.index = j := by
  simp [Hub.freeIndex, ← Fin.find?_eq_find?_finRange]

/-- An index that no entry occupies is found, or one below it (R2). -/
theorem free_index_found {h : Hub} {i : Index} (free : ∀ e ∈ h.table, e.index ≠ i) : ∃ j, h.freeIndex = some j :=
  Option.isSome_iff_exists.1 (List.find?_isSome.2 ⟨i, List.mem_finRange i, by simpa using free⟩)

theorem holds_is_empty_iff {x : Holds} : x.isEmpty = true ↔ x = Holds.none := by
  cases x
  simp [Holds.isEmpty, Holds.none, and_assoc]

/-- A HELD entry stays HELD exactly where a hold reason is left (R12). -/
theorem promote_held {e : Entry} (held : e.phase = .held) :
    e.promote = { e with phase := if e.holds = Holds.none then .queued else .held } := by
  rcases promote_cases e with ⟨_, empty, eq⟩ | ⟨stays, eq⟩
  · rw [eq, if_pos (holds_is_empty_iff.1 empty)]
  · rw [eq, if_neg (fun cleared => stays ⟨held, holds_is_empty_iff.2 cleared⟩), ← held]

/-- The hold reasons of a new entry (R9, R10, R11). -/
theorem new_holds_eq (h : Hub) (e : Entry) :
    h.newHolds e =
      { order := ((h.table.filter (fun x => x.unfinished && hazard x e)).getLast?).map Entry.index
        fencesAhead := (h.layer e.port).fences.length
        lease := someLease h (fun l => l.conflictsWith e.port e.kind e.addr e.length)
        channel := h.channel == .bringup || h.channel == .entering || h.channel == .resting || h.channel == .leaving } := by
  simp only [Hub.newHolds, predecessorAmong, Hub.foreignConflicts, ids_where_empty, Bool.not_not]

/-- A taking moves nothing that the hold reasons of a new entry of its port depend on. -/
theorem new_holds_after_taking (h : Hub) (rest : List (List Byte)) (e : Entry) :
    (h.afterTaking e.port rest).newHolds e = h.newHolds e := by
  simp only [Hub.newHolds, after_taking_layer, if_true]
  rfl

/-! ### The checks of R5 -/

/-- The lock condition of R5 (check 7) as `Hub.admission` tests it. -/
theorem locked_iff (h : Hub) (p : Port) (kind : Access) (a length : Nat) :
    (h.ownGuards p kind a length ≠ [] ∨
        (h.foreignConflicts p kind a length ≠ [] ∧ h.config.committed.conflictAction.get p = .reject)) ↔
      (someLease h (fun l => guardsOwn l p kind a length) ||
        (someLease h (fun l => l.conflictsWith p kind a length) &&
          h.config.committed.conflictAction.get p == .reject)) = true := by
  have nonempty (c : Lease → Bool) : h.leases.idsWhere c ≠ [] ↔ someLease h c = true := by
    rw [Ne, ← List.isEmpty_iff, ids_where_empty, Bool.not_eq_true, Bool.not_eq_false']
  simp only [Hub.ownGuards, Hub.foreignConflicts, nonempty, guardsOwn, Bool.or_eq_true, Bool.and_eq_true, beq_iff_eq]

/-- The table of R5 as a chain of tests, each in the terms of `Hub.admission`. -/
theorem first_refusal_eq (h : Hub) (p : Port) (kind : Access) (tag : Byte) (words reserved addr a : Nat) :
    firstThatHolds (admissionTable h p kind tag words reserved addr a) =
      if words < 1 ∨ 32 < words ∨ addr % 8 ≠ 0 ∨ portSpace < addr + words * 8 ∨ reserved ≠ 0 then some (.malformed, 0)
      else if h.tagInUse p tag = true then some (.tagInUse, 0)
      else if h.channel = .unready then some (.notReady, 0)
      else if windowServes h p (fun r => r.grants kind) addr (words * 8) = false then some (.noWindow, 0)
      else if crossesSegment addr (words * 8) = true then some (.span, 0)
      else if h.config.committed.quota.get p ≤ h.occupied p then some (.full, h.config.committed.quota.get p)
      else if h.ownGuards p kind a (words * 8) ≠ [] ∨
          (h.foreignConflicts p kind a (words * 8) ≠ [] ∧ h.config.committed.conflictAction.get p = .reject) then
        some (.locked, h.lowestNamed p kind a (words * 8))
      else none := by
  simp only [admissionTable, first_that_holds_cons, first_that_holds_nil, decide_eq_true_eq, beq_iff_eq,
    Bool.not_eq_true', locked_iff]
  rfl

/-- A taking moves nothing that the table of R5 reads. -/
theorem admission_table_after_taking (h : Hub) (p : Port) (rest : List (List Byte)) (kind : Access) (tag : Byte)
    (words reserved addr a : Nat) :
    admissionTable (h.afterTaking p rest) p kind tag words reserved addr a =
      admissionTable h p kind tag words reserved addr a := by
  simp only [admissionTable, after_taking_layer, if_true]
  rfl

/-- A request that the table of R5 does not refuse has words to transfer. -/
theorem words_pos_of_not_refused {h : Hub} {p : Port} {kind : Access} {tag : Byte} {words reserved addr a : Nat}
    (passes : firstThatHolds (admissionTable h p kind tag words reserved addr a) = none) : 0 < words * 8 := by
  by_contra zero
  have malformed : words < 1 := by omega
  simp [first_refusal_eq, malformed] at passes

/-- The checks of `Hub.admission` answer with the first condition of the table of R5 that holds, and with the physical
address and the free entry where none does. Without a free entry the port is at its quota. -/
theorem admission_eq_table {h : Hub} {p : Port} {kind : Access} {tag : Byte} {words reserved addr a : Nat} {i : Index}
    (apart : WindowsApart h) (phys : TranslatesTo h p addr (words * 8) a)
    (room : h.freeIndex = some i ∨ h.config.committed.quota.get p ≤ h.occupied p) :
    h.admission p kind tag words reserved addr =
      (firstThatHolds (admissionTable h p kind tag words reserved addr a)).elim (.ok (a, i)) .error := by
  rw [first_refusal_eq]
  unfold Hub.admission
  by_cases malformed : words < 1 ∨ 32 < words ∨ addr % 8 ≠ 0 ∨ portSpace < addr + words * 8 ∨ reserved ≠ 0
  · simp only [if_pos malformed, Option.elim_some]
  by_cases used : h.tagInUse p tag = true
  · simp only [if_neg malformed, if_pos used, Option.elim_some]
  by_cases unready : h.channel = .unready
  · simp only [if_neg malformed, if_neg used, if_pos unready, Option.elim_some]
  simp only [if_neg malformed, if_neg used, if_neg unready, translate_for_eq apart (by omega : 0 < words * 8) phys]
  cases windowServes h p (fun r => r.grants kind) addr (words * 8) with
  | false => rfl
  | true =>
    simp only [Bool.true_eq_false, if_true, if_false]
    by_cases crosses : crossesSegment addr (words * 8) = true
    · simp only [if_pos crosses, Option.elim_some]
    by_cases full : h.config.committed.quota.get p ≤ h.occupied p
    · simp only [if_neg crosses, if_pos full]
      cases h.freeIndex <;> rfl
    · have free : h.freeIndex = some i := room.resolve_right full
      simp only [if_neg crosses, if_neg full, free]
      split_ifs <;> rfl

/-! ### READ and WRITE -/

/-- A READ that is taken is refused or admitted with nothing in its buffer. -/
theorem exec_read_taken {s : State} {p : Port} {m : List Byte} {rest : List (List Byte)} {tag : Byte}
    {words reserved addr : Nat} (taking : Taking s p m rest) (parsed : parseRequest m = some (.read tag words reserved addr)) :
    exec (.read p) s = after s ((s.hub.afterTaking p rest).admitOrRefuse p .read tag words reserved addr []) :=
  (exec_read p s).trans (perform_after taking.running (by simp only [Hub.takeRead, taking_request taking parsed]))

/-- A WRITE that is taken is refused or admitted with its data words in its buffer. -/
theorem exec_write_taken {s : State} {p : Port} {m : List Byte} {rest : List (List Byte)} {tag : Byte}
    {words reserved addr : Nat} {data : List Word} (taking : Taking s p m rest)
    (parsed : parseRequest m = some (.write tag words reserved addr data)) :
    exec (.write p) s = after s ((s.hub.afterTaking p rest).admitOrRefuse p .write tag words reserved addr data) :=
  (exec_write p s).trans (perform_after taking.running (by simp only [Hub.takeWrite, taking_request taking parsed]))

/-- A taken request for which a condition of R5 holds is refused with that condition's status and detail. -/
theorem refused_by_table {h : Hub} {p : Port} {kind : Access} {tag : Byte} {words reserved addr a : Nat}
    {status : Status} {detail : Nat} (rest : List (List Byte)) (data : List Word) (apart : WindowsApart h)
    (phys : TranslatesTo h p addr (words * 8) a)
    (room : (∃ i, ∀ e ∈ h.table, e.index ≠ i) ∨ h.config.committed.quota.get p ≤ h.occupied p)
    (refuses : firstThatHolds (admissionTable h p kind tag words reserved addr a) = some (status, detail)) :
    (h.afterTaking p rest).admitOrRefuse p kind tag words reserved addr data =
      (h.afterTaking p rest).refuse p tag status detail := by
  have found : ∃ i, h.freeIndex = some i ∨ h.config.committed.quota.get p ≤ h.occupied p := by
    rcases room with ⟨i, free⟩ | full
    · obtain ⟨j, hj⟩ := free_index_found free
      exact ⟨j, .inl hj⟩
    · exact ⟨0, .inr full⟩
  obtain ⟨i, room⟩ := found
  have answer : (h.afterTaking p rest).admission p kind tag words reserved addr = .error (status, detail) := by
    rw [admission_eq_table (h := h.afterTaking p rest) (i := i) apart phys room, admission_table_after_taking, refuses]
    rfl
  simp only [Hub.admitOrRefuse, answer]

/-- A taken request that no condition of R5 refuses joins the tail of the age list in its entry, which is QUEUED if no hold
reason stands against it (R3, R7, R12). -/
theorem admitted_by_table {h : Hub} {p : Port} {kind : Access} {tag : Byte} {words reserved addr a : Nat} {i : Index}
    {data : List Word} {holds : Holds} (rest : List (List Byte)) (apart : WindowsApart h)
    (phys : TranslatesTo h p addr (words * 8) a) (free : h.freeIndex = some i)
    (passes : firstThatHolds (admissionTable h p kind tag words reserved addr a) = none)
    (reasons : h.newHolds (h.newEntry p kind tag words a i data) = holds) :
    (h.afterTaking p rest).admitOrRefuse p kind tag words reserved addr data =
      ({ h.afterTaking p rest with table := h.table ++
        [{ h.newEntry p kind tag words a i data with
          phase := if holds = Holds.none then .queued else .held
          holds := holds }] }.addTag p tag).wantMemory p := by
  have answer : (h.afterTaking p rest).admission p kind tag words reserved addr = .ok (a, i) := by
    rw [admission_eq_table (h := h.afterTaking p rest) apart phys (.inl free), admission_table_after_taking, passes]
    rfl
  have taken : (h.afterTaking p rest).newHolds (h.newEntry p kind tag words a i data) = holds :=
    (new_holds_after_taking h rest (h.newEntry p kind tag words a i data)).trans reasons
  have entry : (h.afterTaking p rest).newEntry p kind tag words a i data = h.newEntry p kind tag words a i data := rfl
  simp only [Hub.admitOrRefuse, answer, entry, taken]
  rw [promote_held (by rfl)]
  rfl

/-- Settles O6: the checks of `Hub.admission` are the table of R5, whose window condition gives the one physical address
because the windows of a port lie apart. -/
theorem readAndWriteAreDecidedByR5AndAdmittedByR7 : Obligations.ReadAndWriteAreDecidedByR5AndAdmittedByR7 := by
  unfold Obligations.ReadAndWriteAreDecidedByR5AndAdmittedByR7
  constructor
  · intro s p kind m rest tag words reserved addr a data status detail taking parsed apart phys room refuses
    cases kind with
    | read => rw [exec_read_taken taking parsed, refused_by_table rest [] apart phys room refuses]
    | write => rw [exec_write_taken taking parsed, refused_by_table rest data apart phys room refuses]
  · intro s p kind m rest tag words reserved addr a data i v r taking parsed apart enabled low high addr_eq free lowest passes
    have phys : TranslatesTo s.hub p addr (words * 8) a :=
      addr_eq ▸ translates_through apart (words_pos_of_not_refused passes) enabled low high
    have found : s.hub.freeIndex = some i := free_index_eq_some_iff.2 ⟨free, lowest⟩
    cases kind with
    | read =>
      rw [exec_read_taken taking parsed, admitted_by_table rest apart phys found passes (new_holds_eq _ _)]
      rfl
    | write =>
      rw [exec_write_taken taking parsed, admitted_by_table rest apart phys found passes (new_holds_eq _ _)]
      rfl

/-! ### FENCE (R18) -/

/-- A FENCE that is taken is refused, answered or listed. -/
theorem exec_fence_taken {s : State} {p : Port} {m : List Byte} {rest : List (List Byte)} {tag : Byte} {reserved : Nat}
    (taking : Taking s p m rest) (parsed : parseRequest m = some (.fence tag reserved)) :
    exec (.fence p) s = after s ((s.hub.afterTaking p rest).addFence p tag reserved) :=
  (exec_fence p s).trans (perform_after taking.running (by simp only [Hub.takeFence, taking_request taking parsed]))

/-- The refusals of a FENCE, in order (R18). -/
def fenceTable (h : Hub) (p : Port) (tag : Byte) (reserved : Nat) : List (Bool × Status × Nat) :=
  [(reserved != 0, .malformed, 0), ((h.layer p).tags.contains tag, .tagInUse, 0),
    (decide (4 ≤ (h.layer p).fences.length), .full, 0)]

/-- `Hub.addFence` answers with the first refusal that holds; where none does, the OK at once or the fence on the list. -/
theorem add_fence_eq (h : Hub) (p : Port) (tag : Byte) (reserved : Nat) :
    h.addFence p tag reserved =
      (firstThatHolds (fenceTable h p tag reserved)).elim
        (let watch := (h.table.filter (fun e => e.port == p && e.unfinished)).map Entry.index
          if watch = [] then h.accept p tag
          else (h.onMessages p (fun l => { l with fences := l.fences ++ [⟨tag, watch⟩] })).addTag p tag)
        (fun r => h.refuse p tag r.1 r.2) := by
  simp only [fenceTable, first_that_holds_cons, first_that_holds_nil, bne_iff_ne, decide_eq_true_eq]
  unfold Hub.addFence Hub.tagInUse
  dsimp only
  split_ifs <;> rfl

/-- A taking moves nothing that the refusals of a FENCE read. -/
theorem fence_table_after_taking (h : Hub) (p : Port) (rest : List (List Byte)) (tag : Byte) (reserved : Nat) :
    fenceTable (h.afterTaking p rest) p tag reserved = fenceTable h p tag reserved := by
  simp only [fenceTable, after_taking_layer, if_true]

/-- Settles O7: `Hub.addFence` follows the refusals of R18 in order, on a hub whose tags and fences the taking has left as
they were. -/
theorem fenceIsRefusedRepliedOrListed : Obligations.FenceIsRefusedRepliedOrListed := by
  unfold Obligations.FenceIsRefusedRepliedOrListed
  intro s p m rest tag reserved taking parsed
  have outcome := exec_fence_taken taking parsed
  rw [add_fence_eq, fence_table_after_taking] at outcome
  constructor
  · intro status detail refuses
    rw [outcome, show firstThatHolds (fenceTable s.hub p tag reserved) = some (status, detail) from refuses]
    rfl
  · intro passes
    rw [outcome, show firstThatHolds (fenceTable s.hub p tag reserved) = none from passes]
    rfl

end Sys2Proof.Safety
end

section
/-! SUPPORT. The cut of a transaction into bursts: the statement of the family "scheduling and the bank table". The segment
is read in groups of 8 words; the next burst runs from the first word not yet done to the end of its group, or to the end of
the transaction if that comes first (R47). -/

namespace Sys2Proof.Safety

open Sys2Proof.Machine

/-! ### The next burst -/

/-- The word after the last word of the 8-word group in which an entry's next burst begins (R47). -/
def groupEnd (e : Entry) : Nat := (e.nextWord / 8 + 1) * 8

theorem next_word_lt_group_end (e : Entry) : e.nextWord < groupEnd e := by
  unfold groupEnd
  omega

theorem group_end_le (e : Entry) : groupEnd e ≤ e.nextWord + 8 := by
  unfold groupEnd
  omega

/-- The next burst stops at the end of the transaction or at the end of its group, whichever comes first (R47). -/
theorem burst_stops {e : Entry} (unfinished : e.wordsDone < e.words) :
    e.nextWord + e.burstWords = min (e.firstWord + e.words) (groupEnd e) := by
  have inside : e.nextWord < e.firstWord + e.words := Nat.add_lt_add_left unfinished e.firstWord
  exact Nat.add_sub_of_le (Nat.le_min.2 ⟨inside.le, (next_word_lt_group_end e).le⟩)

/-- The two ways a burst can stop: with the transaction, or short of it at a group's end. -/
theorem burst_stops_cases {e : Entry} (unfinished : e.wordsDone < e.words) :
    (e.nextWord + e.burstWords = e.firstWord + e.words ∧ e.firstWord + e.words ≤ groupEnd e) ∨
      (e.nextWord + e.burstWords = groupEnd e ∧ groupEnd e < e.firstWord + e.words) := by
  rw [burst_stops unfinished]
  rcases Nat.lt_or_ge (groupEnd e) (e.firstWord + e.words) with cut | last
  · exact .inr ⟨Nat.min_eq_right cut.le, cut⟩
  · exact .inl ⟨Nat.min_eq_left last, last⟩

theorem burst_words_pos {e : Entry} (unfinished : e.wordsDone < e.words) : 1 ≤ e.burstWords := by
  have inside : e.nextWord < e.firstWord + e.words := Nat.add_lt_add_left unfinished e.firstWord
  have stop : e.nextWord < e.nextWord + e.burstWords :=
    (Nat.lt_min.2 ⟨inside, next_word_lt_group_end e⟩).trans_eq (burst_stops unfinished).symm
  exact Nat.pos_of_lt_add_right stop

theorem burst_within_group {e : Entry} (unfinished : e.wordsDone < e.words) :
    e.nextWord + e.burstWords ≤ groupEnd e :=
  (burst_stops unfinished).trans_le (Nat.min_le_right _ _)

theorem burst_words_le_eight {e : Entry} (unfinished : e.wordsDone < e.words) : e.burstWords ≤ 8 :=
  Nat.le_of_add_le_add_left ((burst_within_group unfinished).trans (group_end_le e))

/-- The first and the last word of a burst lie in one group. -/
theorem burst_in_one_group {e : Entry} (unfinished : e.wordsDone < e.words) :
    e.nextWord / 8 = (e.nextWord + e.burstWords - 1) / 8 := by
  have some_word := burst_words_pos unfinished
  have stop := burst_within_group unfinished
  unfold groupEnd at stop
  omega

theorem burst_within_transaction {e : Entry} (unfinished : e.wordsDone < e.words) :
    e.wordsDone + e.burstWords ≤ e.words := by
  have stop : e.firstWord + e.wordsDone + e.burstWords ≤ e.firstWord + e.words :=
    (burst_stops unfinished).trans_le (Nat.min_le_left _ _)
  omega

/-! ### The groups left -/

/-- The groups from that of `word` to that of the transaction's last word: the bursts left when the next begins at `word`. -/
def groupsLeft (e : Entry) (word : Nat) : Nat := (e.firstWord + e.words - 1) / 8 - word / 8 + 1

/-- A burst that stops short of the transaction's last word ends its group and leaves one group fewer. -/
theorem groups_left_after_burst {e : Entry} (unfinished : e.wordsDone < e.words)
    (short : e.wordsDone + e.burstWords < e.words) :
    (e.nextWord + e.burstWords) % 8 = 0 ∧
      groupsLeft e (e.nextWord + e.burstWords) + 1 = groupsLeft e e.nextWord := by
  have next : e.nextWord = e.firstWord + e.wordsDone := rfl
  rcases burst_stops_cases unfinished with ⟨stop, _⟩ | ⟨stop, cut⟩
  · omega
  · rw [stop]
    unfold groupEnd at cut ⊢
    unfold groupsLeft
    omega

/-- The burst that reaches the transaction's last word is in the last group. -/
theorem groups_left_at_last_burst {e : Entry} (unfinished : e.wordsDone < e.words)
    (last : e.wordsDone + e.burstWords = e.words) : groupsLeft e e.nextWord = 1 := by
  have stop : e.nextWord + e.burstWords = e.firstWord + e.words := by rw [← last, ← Nat.add_assoc]; rfl
  have same : (e.firstWord + e.words - 1) / 8 = e.nextWord / 8 := by rw [← stop, burst_in_one_group unfinished]
  rw [groupsLeft, same, Nat.sub_self]

/-- A segment holds four groups. -/
theorem groups_left_bounds {e : Entry} (segment : e.firstWord + e.words ≤ 32) (word : Nat) :
    1 ≤ groupsLeft e word ∧ groupsLeft e word ≤ 4 := by
  unfold groupsLeft
  omega

/-- An aligned transaction inside its segment finds word n of the segment n words from the segment's base. -/
theorem burst_addr_word {e : Entry} (unfinished : e.wordsDone < e.words) (segment : e.firstWord + e.words ≤ 32)
    (aligned : e.addr % 8 = 0) : e.burstAddr % 256 / 8 = e.nextWord := by
  unfold Entry.firstWord at segment
  unfold Entry.burstAddr Entry.nextWord Entry.firstWord
  omega

/-- Settles O40: a burst stops with the transaction or at the end of its group, so every burst but the last uses up exactly
one of the groups left. -/
theorem burstsAreCutAtEightWordBoundaries : Obligations.BurstsAreCutAtEightWordBoundaries := by
  unfold Obligations.BurstsAreCutAtEightWordBoundaries
  intro e unfinished segment
  exact ⟨burst_words_pos unfinished, burst_words_le_eight unfinished, burst_in_one_group unfinished,
    burst_within_transaction unfinished, groups_left_after_burst unfinished, groups_left_at_last_burst unfinished,
    fun _ => groups_left_bounds segment _, burst_addr_word unfinished segment⟩

end Sys2Proof.Safety
end

section
/-! SUPPORT. The upkeep unit across an event (chapter 3). Every shared operation but for the loading of the interval timer
leaves the unit as it is; with these facts, all that a step can do to the debt and the level is said once. -/

namespace Sys2Proof.Machine

/-! ### Operations that leave the upkeep unit as it is -/

/-- A fold of operations that leave the upkeep unit leaves it. -/
theorem foldl_upkeep {α : Type} {f : Hub → α → Hub} (keeps : ∀ h a, (f h a).upkeep = h.upkeep) (l : List α) (h : Hub) :
    (l.foldl f h).upkeep = h.upkeep := by
  induction l generalizing h with
  | nil => rfl
  | cons a l ih => rw [List.foldl_cons, ih, keeps]

@[simp] theorem answer_upkeep (h : Hub) (p : Port) (r : Reply) : (h.answer p r).upkeep = h.upkeep := by
  rw [answer_eq]
  split <;> rfl

@[simp] theorem refuse_upkeep (h : Hub) (p : Port) (tag : Byte) (status : Status) (detail : Nat) :
    (h.refuse p tag status detail).upkeep = h.upkeep := answer_upkeep h p _

@[simp] theorem grant_drained_upkeep (h : Hub) : h.grantDrained.upkeep = h.upkeep := by
  obtain ⟨_, _, e⟩ := grant_drained_frame h
  rw [e]

@[simp] theorem scan_waits_upkeep (h : Hub) : h.scanWaits.upkeep = h.upkeep := by
  obtain ⟨_, _, e⟩ := scan_waits_frame h
  rw [e]

@[simp] theorem lease_leaves_upkeep (h : Hub) (id : LeaseId) : (h.leaseLeaves id).upkeep = h.upkeep := by
  obtain ⟨_, _, _, e⟩ := lease_leaves_frame h id
  rw [e]

@[simp] theorem lapse_upkeep (h : Hub) (x : LeaseSlot) : (h.lapse x).upkeep = h.upkeep := by
  obtain ⟨_, _, e, _⟩ := lapse_frame h x
  rw [e]

@[simp] theorem remove_entries_upkeep (h : Hub) (gone : List Index) : (h.removeEntries gone).upkeep = h.upkeep := rfl

@[simp] theorem free_entries_upkeep (h : Hub) (gone : List Index) : (h.freeEntries gone).upkeep = h.upkeep := by
  rw [Hub.freeEntries, grant_drained_upkeep, remove_entries_upkeep]

@[simp] theorem answer_aborts_upkeep (h : Hub) (es : List Entry) : (h.answerAborts es).upkeep = h.upkeep := by
  obtain ⟨_, e⟩ := answer_aborts_frame h es
  rw [e]

@[simp] theorem abort_answered_upkeep (h : Hub) : h.abortAnswered.upkeep = h.upkeep := by simp [Hub.abortAnswered]

@[simp] theorem empty_leases_upkeep (h : Hub) : h.emptyLeases.upkeep = h.upkeep := by
  unfold Hub.emptyLeases
  simp only [Hub.freeSlots_upkeep]
  rw [foldl_upkeep, foldl_upkeep]
  · intro g w
    rfl
  · intro g x
    split <;> simp

@[simp] theorem commit_aborts_upkeep (h : Hub) (abort geometry : Bool) :
    (h.commitAborts abort geometry).upkeep = h.upkeep := by
  unfold Hub.commitAborts
  dsimp only
  split_ifs <;> simp

@[simp] theorem discard_work_upkeep (h : Hub) : h.discardWork.upkeep = h.upkeep := rfl

@[simp] theorem become_serving_upkeep (h : Hub) : h.becomeServing.upkeep = h.upkeep := by
  obtain ⟨_, _, e, _⟩ := become_serving_frame h
  rw [e]

@[simp] theorem give_role_upkeep (h : Hub) (p : Port) : (h.giveRole p).upkeep = h.upkeep := rfl

@[simp] theorem link_up_upkeep (h : Hub) (p : Port) : (h.linkUp p).upkeep = h.upkeep := rfl

@[simp] theorem teardown_upkeep (h : Hub) (p : Port) : (h.teardown p).upkeep = h.upkeep := by
  unfold Hub.teardown
  dsimp only
  split <;> simp

@[simp] theorem start_burst_upkeep (h : Hub) (e : Entry) : (h.startBurst e).upkeep = h.upkeep := rfl

@[simp] theorem free_aborting_upkeep (h : Hub) (e : Entry) (k : AbortKind) : (h.freeAborting e k).upkeep = h.upkeep := by
  cases k <;> simp [Hub.freeAborting]

@[simp] theorem complete_burst_upkeep (h : Hub) (e : Entry) (words : Nat) :
    (h.completeBurst e words).upkeep = h.upkeep := by
  unfold Hub.completeBurst
  dsimp only
  split
  · rw [free_aborting_upkeep]
  · split_ifs <;> rfl

@[simp] theorem placed_upkeep (h : Hub) (p : Port) (r : PendingReply) : (h.placed p r).upkeep = h.upkeep := by
  cases r <;> simp [Hub.placed, Hub.fenceLeaves]

/-! ### What a taking and a hearing leave of the upkeep unit -/

theorem take_head_upkeep {h g : Hub} {p : Port} {m : List Byte} (e : h.takeHead p = some (m, g)) : g.upkeep = h.upkeep := by
  obtain ⟨_, _, _, rfl⟩ := take_head_cases e
  rfl

theorem take_request_upkeep {h g : Hub} {p : Port} {r : Request} (e : h.takeRequest p = some (r, g)) :
    g.upkeep = h.upkeep := by
  obtain ⟨_, _, _, _, _, rfl⟩ := take_request_cases e
  rfl

theorem hub_hear_upkeep {h g : Hub} {p : Port} {line : List LineSymbol} {f : LineFrame} (e : h.hear p line = some (f, g)) :
    g.upkeep = h.upkeep := by
  obtain ⟨_, _, rfl⟩ := hub_hear_cases e
  rfl

theorem hear_good_upkeep {h g : Hub} {p : Port} {line : List LineSymbol} {b : FrameBody}
    (e : h.hearGood p line = some (b, g)) : g.upkeep = h.upkeep := by
  obtain ⟨_, _, _, _, rfl⟩ := hear_good_cases e
  rfl

theorem landed_upkeep {h g : Hub} {c : ChannelCommand} (e : h.landed c = some g) : g.upkeep = h.upkeep := by
  unfold Hub.landed at e
  split at e
  · split at e <;> cases e
    rfl
  · cases e

/-! ### Requests that have been taken -/

/-- The account of the upkeep unit: what moves the debt moves the level with it (R61). -/
def UpkeepUnit.account (u : UpkeepUnit) : Nat × Urgency := (u.debt, u.level)

/-- Asking for the memory can load the interval timer (R109), but leaves the account. -/
@[simp] theorem want_memory_account (h : Hub) (p : Port) : (h.wantMemory p).upkeep.account = h.upkeep.account := by
  unfold Hub.wantMemory
  dsimp only
  split <;> rfl

@[simp] theorem admit_or_refuse_account (h : Hub) (p : Port) (kind : Access) (tag : Byte) (words reserved addr : Nat)
    (data : List Word) : (h.admitOrRefuse p kind tag words reserved addr data).upkeep.account = h.upkeep.account := by
  unfold Hub.admitOrRefuse
  split <;> simp

@[simp] theorem vote_wake_account (h : Hub) (p : Port) (tag : Byte) (reserved : Nat) :
    (h.voteWake p tag reserved).upkeep.account = h.upkeep.account := by
  unfold Hub.voteWake
  dsimp only
  split_ifs <;> simp

@[simp] theorem add_fence_upkeep (h : Hub) (p : Port) (tag : Byte) (reserved : Nat) :
    (h.addFence p tag reserved).upkeep = h.upkeep := by
  unfold Hub.addFence
  dsimp only
  split_ifs <;> simp

@[simp] theorem stage_upkeep (h : Hub) (p : Port) (tag : Byte) (reserved : Nat) (pairs : List SetPair) :
    (h.stage p tag reserved pairs).upkeep = h.upkeep := by
  unfold Hub.stage
  split
  · simp
  · split <;> simp

@[simp] theorem commit_upkeep (h : Hub) (p : Port) (tag : Byte) (force reserved : Nat) :
    (h.commit p tag force reserved).upkeep = h.upkeep := by
  unfold Hub.commit
  split
  · simp
  · split <;> simp

@[simp] theorem set_window_upkeep (h : Hub) (p : Port) (tag : Byte) (port window enable : Nat) (rights : Byte)
    (reserved base size target : Nat) :
    (h.setWindow p tag port window enable rights reserved base size target).upkeep = h.upkeep := by
  unfold Hub.setWindow
  split
  · simp
  · dsimp only
    split_ifs
    · simp
    · simp
    · split <;> simp

@[simp] theorem pass_role_upkeep (h : Hub) (p : Port) (tag : Byte) (target reserved : Nat) :
    (h.passRole p tag target reserved).upkeep = h.upkeep := by
  unfold Hub.passRole
  split
  · simp
  · dsimp only
    split_ifs <;> simp

@[simp] theorem claim_role_upkeep (h : Hub) (p : Port) (tag : Byte) (reserved : Nat) :
    (h.claimRole p tag reserved).upkeep = h.upkeep := by
  unfold Hub.claimRole
  split_ifs
  · simp
  · simp
  · split <;> simp

@[simp] theorem start_reset_upkeep (h : Hub) (p : Port) (tag : Byte) (reserved : Nat) :
    (h.startReset p tag reserved).upkeep = h.upkeep := by
  unfold Hub.startReset
  split <;> simp

@[simp] theorem place_take_upkeep (h : Hub) (id : LeaseId) (w : Waiting) : (h.placeTake id w).upkeep = h.upkeep := by
  unfold Hub.placeTake
  dsimp only
  split <;> simp

/-- The checks of R79, in their order: each refuses, and a request that passes them is placed or waits. -/
@[simp] theorem request_lease_upkeep (h : Hub) (p : Port) (tag mode flags : Byte) (addr length duration limit : Nat) :
    (h.requestLease p tag mode flags addr length duration limit).upkeep = h.upkeep := by
  unfold Hub.requestLease
  split
  · simp
  split
  · simp
  split
  · simp
  split
  · simp
  dsimp only
  split
  · simp
  · split_ifs <;> simp
  · split_ifs <;> simp

@[simp] theorem drop_lease_upkeep (h : Hub) (p : Port) (tag : Byte) (id : Nat) (generation : Byte) (reserved : Nat) :
    (h.dropLease p tag id generation reserved).upkeep = h.upkeep := by
  unfold Hub.dropLease
  split_ifs
  · simp
  · simp
  · split <;> simp

@[simp] theorem renew_lease_upkeep (h : Hub) (p : Port) (tag : Byte) (id : Nat) (generation : Byte)
    (duration reserved : Nat) : (h.renewLease p tag id generation duration reserved).upkeep = h.upkeep := by
  unfold Hub.renewLease
  split_ifs
  · simp
  · simp
  · split <;> simp

@[simp] theorem vote_rest_upkeep (h : Hub) (p : Port) (tag : Byte) (reserved : Nat) :
    (h.voteRest p tag reserved).upkeep = h.upkeep := by
  unfold Hub.voteRest
  split_ifs <;> simp

@[simp] theorem answer_query_upkeep (h : Hub) (p : Port) (tag : Byte) (subject port : Nat) :
    (h.answerQuery p tag subject port).upkeep = h.upkeep := by
  unfold Hub.answerQuery
  split_ifs <;> simp

end Sys2Proof.Machine
end

section
/-! SUPPORT. The commands that leave the upkeep unit as it is, and the requests that ask for the memory, which leave its
account. The commands that move the account (R59 to R62), and those of the reset line, stand in the section after this. -/

namespace Sys2Proof.Machine

/-! ### Requests -/

theorem take_read_account {h g : Hub} {p : Port} (e : h.takeRead p = some g) : g.upkeep.account = h.upkeep.account := by
  unfold Hub.takeRead at e
  split at e <;> cases e
  next taken => rw [admit_or_refuse_account, take_request_upkeep taken]

theorem take_write_account {h g : Hub} {p : Port} (e : h.takeWrite p = some g) : g.upkeep.account = h.upkeep.account := by
  unfold Hub.takeWrite at e
  split at e <;> cases e
  next taken => rw [admit_or_refuse_account, take_request_upkeep taken]

theorem take_wake_account {h g : Hub} {p : Port} (e : h.takeWake p = some g) : g.upkeep.account = h.upkeep.account := by
  unfold Hub.takeWake at e
  split at e <;> cases e
  next taken => rw [vote_wake_account, take_request_upkeep taken]

theorem take_fence_upkeep {h g : Hub} {p : Port} (e : h.takeFence p = some g) : g.upkeep = h.upkeep := by
  unfold Hub.takeFence at e
  split at e <;> cases e
  next taken => rw [add_fence_upkeep, take_request_upkeep taken]

theorem take_lease_take_upkeep {h g : Hub} {p : Port} (e : h.takeLeaseTake p = some g) : g.upkeep = h.upkeep := by
  unfold Hub.takeLeaseTake at e
  split at e <;> cases e
  next taken => rw [request_lease_upkeep, take_request_upkeep taken]

theorem take_lease_drop_upkeep {h g : Hub} {p : Port} (e : h.takeLeaseDrop p = some g) : g.upkeep = h.upkeep := by
  unfold Hub.takeLeaseDrop at e
  split at e <;> cases e
  next taken => rw [drop_lease_upkeep, take_request_upkeep taken]

theorem take_lease_renew_upkeep {h g : Hub} {p : Port} (e : h.takeLeaseRenew p = some g) : g.upkeep = h.upkeep := by
  unfold Hub.takeLeaseRenew at e
  split at e <;> cases e
  next taken => rw [renew_lease_upkeep, take_request_upkeep taken]

theorem take_rest_upkeep {h g : Hub} {p : Port} (e : h.takeRest p = some g) : g.upkeep = h.upkeep := by
  unfold Hub.takeRest at e
  split at e <;> cases e
  next taken => rw [vote_rest_upkeep, take_request_upkeep taken]

theorem take_query_upkeep {h g : Hub} {p : Port} (e : h.takeQuery p = some g) : g.upkeep = h.upkeep := by
  unfold Hub.takeQuery at e
  split at e <;> cases e
  next taken => rw [answer_query_upkeep, take_request_upkeep taken]

theorem take_config_set_upkeep {h g : Hub} {p : Port} (e : h.takeConfigSet p = some g) : g.upkeep = h.upkeep := by
  unfold Hub.takeConfigSet at e
  split at e <;> cases e
  next taken => rw [stage_upkeep, take_request_upkeep taken]

theorem take_config_commit_upkeep {h g : Hub} {p : Port} (e : h.takeConfigCommit p = some g) : g.upkeep = h.upkeep := by
  unfold Hub.takeConfigCommit at e
  split at e <;> cases e
  next taken => rw [commit_upkeep, take_request_upkeep taken]

theorem take_window_set_upkeep {h g : Hub} {p : Port} (e : h.takeWindowSet p = some g) : g.upkeep = h.upkeep := by
  unfold Hub.takeWindowSet at e
  split at e <;> cases e
  next taken => rw [set_window_upkeep, take_request_upkeep taken]

theorem take_handover_upkeep {h g : Hub} {p : Port} (e : h.takeHandover p = some g) : g.upkeep = h.upkeep := by
  unfold Hub.takeHandover at e
  split at e <;> cases e
  next taken => rw [pass_role_upkeep, take_request_upkeep taken]

theorem take_claim_upkeep {h g : Hub} {p : Port} (e : h.takeClaim p = some g) : g.upkeep = h.upkeep := by
  unfold Hub.takeClaim at e
  split at e <;> cases e
  next taken => rw [claim_role_upkeep, take_request_upkeep taken]

theorem take_hub_reset_upkeep {h g : Hub} {p : Port} (e : h.takeHubReset p = some g) : g.upkeep = h.upkeep := by
  unfold Hub.takeHubReset at e
  split at e <;> cases e
  next taken => rw [start_reset_upkeep, take_request_upkeep taken]

theorem take_malformed_upkeep {h g : Hub} {p : Port} (e : h.takeMalformed p = some g) : g.upkeep = h.upkeep := by
  unfold Hub.takeMalformed at e
  split at e
  next taken =>
    split at e <;> cases e
    rw [refuse_upkeep, take_head_upkeep taken]
  next => cases e

/-! ### The outbound arbiter -/

theorem place_reply_upkeep {h g : Hub} {p : Port} (e : h.placeReply p = some g) : g.upkeep = h.upkeep := by
  unfold Hub.placeReply at e
  split at e
  · cases e
  · split at e
    · obtain ⟨reply, _, rfl⟩ := Option.map_eq_some_iff.1 e
      simp
    · cases e

theorem place_notice_upkeep {h g : Hub} {p : Port} (e : h.placeNotice p = some g) : g.upkeep = h.upkeep := by
  unfold Hub.placeNotice at e
  dsimp only at e
  split at e
  · split at e
    · split at e <;> cases e
      rfl
    · cases e
  · cases e

/-! ### Links -/

theorem message_frame_upkeep {h g : Hub} {p : Port} {line : List LineSymbol} (e : h.messageFrame p line = some g) :
    g.upkeep = h.upkeep := by
  unfold Hub.messageFrame at e
  split at e
  next heard =>
    have kept := hear_good_upkeep heard
    split at e <;> cases e <;> exact kept
  next => cases e

theorem ack_frame_upkeep {h g : Hub} {p : Port} {line : List LineSymbol} (e : h.ackFrame p line = some g) :
    g.upkeep = h.upkeep := by
  unfold Hub.ackFrame at e
  split at e
  next heard =>
    have kept := hear_good_upkeep heard
    split at e <;> cases e <;> exact kept
  next => cases e

theorem nak_frame_upkeep {h g : Hub} {p : Port} {line : List LineSymbol} (e : h.nakFrame p line = some g) :
    g.upkeep = h.upkeep := by
  unfold Hub.nakFrame at e
  split at e
  next heard =>
    have kept := hear_good_upkeep heard
    split at e <;> cases e <;> exact kept
  next => cases e

theorem align_frame_upkeep {h g : Hub} {p : Port} {line : List LineSymbol} (e : h.alignFrame p line = some g) :
    g.upkeep = h.upkeep := by
  unfold Hub.alignFrame at e
  split at e
  next heard =>
    have kept := hear_good_upkeep heard
    split at e <;> cases e
    · rw [teardown_upkeep, kept]
    · exact kept
  next => cases e

theorem ready_frame_upkeep {h g : Hub} {p : Port} {line : List LineSymbol} (e : h.readyFrame p line = some g) :
    g.upkeep = h.upkeep := by
  unfold Hub.readyFrame at e
  split at e
  next heard =>
    have kept := hear_good_upkeep heard
    split at e <;> cases e
    · exact kept
    · split <;> exact kept
  next => cases e

theorem corrupt_frame_upkeep {h g : Hub} {p : Port} {line : List LineSymbol} (e : h.corruptFrame p line = some g) :
    g.upkeep = h.upkeep := by
  unfold Hub.corruptFrame at e
  split at e
  next heard =>
    have kept := hub_hear_upkeep heard
    split_ifs at e <;> cases e
    · rw [teardown_upkeep, kept]
    · exact kept
    · exact kept
  next => cases e

theorem training_expiry_upkeep {h g : Hub} {p : Port} (e : h.trainingExpiry p = some g) : g.upkeep = h.upkeep := by
  unfold Hub.trainingExpiry at e
  split at e <;> cases e
  rfl

theorem send_align_upkeep {h g : Hub} {p : Port} (e : h.sendAlign p = some g) : g.upkeep = h.upkeep := by
  unfold Hub.sendAlign at e
  split at e <;> cases e
  rfl

theorem send_ready_upkeep {h g : Hub} {p : Port} (e : h.sendReady p = some g) : g.upkeep = h.upkeep := by
  unfold Hub.sendReady at e
  split at e <;> cases e
  split <;> rfl

theorem send_ack_upkeep {h g : Hub} {p : Port} (e : h.sendAck p = some g) : g.upkeep = h.upkeep := by
  unfold Hub.sendAck at e
  split at e <;> cases e
  rfl

theorem send_message_upkeep {h g : Hub} {p : Port} (e : h.sendMessage p = some g) : g.upkeep = h.upkeep := by
  unfold Hub.sendMessage at e
  dsimp only at e
  split at e
  · cases e
  · split at e <;> cases e
    rfl

theorem resend_frame_upkeep {h g : Hub} {p : Port} (e : h.resendFrame p = some g) : g.upkeep = h.upkeep := by
  unfold Hub.resendFrame at e
  dsimp only at e
  split at e
  · cases e
  · split at e
    · cases e
    · split at e <;> cases e
      rfl

theorem replay_expiry_upkeep {h g : Hub} {p : Port} (e : h.replayExpiry p = some g) : g.upkeep = h.upkeep := by
  unfold Hub.replayExpiry at e
  split at e
  · dsimp only at e
    split_ifs at e <;> cases e
    · rw [teardown_upkeep, Hub.reach_upkeep]
    · rfl
  · cases e

theorem room_expiry_upkeep {h g : Hub} {p : Port} (e : h.roomExpiry p = some g) : g.upkeep = h.upkeep := by
  unfold Hub.roomExpiry at e
  split at e
  · split at e <;> cases e
    rfl
  · cases e

/-! ### Banks and bursts -/

theorem issue_row_open_upkeep {h g : Hub} {b : BankNo} (e : h.issueRowOpen b = some g) : g.upkeep = h.upkeep := by
  unfold Hub.issueRowOpen at e
  dsimp only at e
  split at e
  · split at e <;> cases e
    rfl
  · cases e

theorem issue_row_close_upkeep {h g : Hub} {b : BankNo} (e : h.issueRowClose b = some g) : g.upkeep = h.upkeep := by
  unfold Hub.issueRowClose at e
  dsimp only at e
  split at e
  · split at e <;> cases e
    rfl
  · cases e

theorem bank_opens_upkeep {h g : Hub} {b : BankNo} (e : h.bankOpens b = some g) : g.upkeep = h.upkeep := by
  unfold Hub.bankOpens at e
  split at e
  · split at e <;> cases e
    rfl
  · cases e

theorem bank_closes_upkeep {h g : Hub} {b : BankNo} (e : h.bankCloses b = some g) : g.upkeep = h.upkeep := by
  unfold Hub.bankCloses at e
  split at e
  · split at e <;> cases e
    rfl
  · cases e

theorem pass_open_mark_upkeep {h g : Hub} {b : BankNo} (e : h.passOpenMark b = some g) : g.upkeep = h.upkeep := by
  unfold Hub.passOpenMark at e
  split at e
  · obtain ⟨_, _, rfl⟩ := Option.map_eq_some_iff.1 e
    rfl
  · cases e

theorem pass_write_mark_upkeep {h g : Hub} {b : BankNo} (e : h.passWriteMark b = some g) : g.upkeep = h.upkeep := by
  unfold Hub.passWriteMark at e
  split at e
  · obtain ⟨_, _, rfl⟩ := Option.map_eq_some_iff.1 e
    rfl
  · cases e

theorem complete_read_upkeep {h g : Hub} {flips : List (BitVec 72)} (e : h.completeRead flips = some g) :
    g.upkeep = h.upkeep := by
  unfold Hub.completeRead at e
  split at e
  · split at e
    · split at e <;> cases e
      rw [complete_burst_upkeep, Hub.reach_upkeep]
    · cases e
  · cases e

theorem complete_write_upkeep {h g : Hub} (e : h.completeWrite = some g) : g.upkeep = h.upkeep := by
  unfold Hub.completeWrite at e
  split at e
  · split at e
    · split at e <;> cases e
      rw [complete_burst_upkeep, Hub.onBank_upkeep, Hub.reach_upkeep]
    · cases e
  · cases e

/-! ### Channel-wide commands that do not move the account -/

theorem issue_all_close_upkeep {h g : Hub} (e : h.issueAllClose = some g) : g.upkeep = h.upkeep := by
  unfold Hub.issueAllClose at e
  dsimp only at e
  split at e <;> cases e
  rfl

theorem complete_all_close_upkeep {h g : Hub} (e : h.completeAllClose = some g) : g.upkeep = h.upkeep := by
  obtain ⟨k, landed, rfl⟩ := Option.map_eq_some_iff.1 e
  have kept := landed_upkeep landed
  exact kept

theorem issue_mode_load_upkeep {h g : Hub} (e : h.issueModeLoad = some g) : g.upkeep = h.upkeep := by
  unfold Hub.issueModeLoad at e
  dsimp only at e
  split at e <;> cases e
  rfl

theorem complete_mode_load_upkeep {h g : Hub} (e : h.completeModeLoad = some g) : g.upkeep = h.upkeep := by
  obtain ⟨k, landed, rfl⟩ := Option.map_eq_some_iff.1 e
  have kept := landed_upkeep landed
  exact kept

theorem issue_upkeep_upkeep {h g : Hub} (e : h.issueUpkeep = some g) : g.upkeep = h.upkeep := by
  unfold Hub.issueUpkeep at e
  dsimp only at e
  split at e <;> cases e
  rfl

theorem issue_retain_exit_upkeep {h g : Hub} (e : h.issueRetainExit = some g) : g.upkeep = h.upkeep := by
  unfold Hub.issueRetainExit at e
  dsimp only at e
  split at e <;> cases e
  rfl

theorem complete_retain_exit_upkeep {h g : Hub} (e : h.completeRetainExit = some g) : g.upkeep = h.upkeep := by
  obtain ⟨k, landed, rfl⟩ := Option.map_eq_some_iff.1 e
  have kept := landed_upkeep landed
  exact kept

theorem end_settle_upkeep {h g : Hub} (e : h.endSettle = some g) : g.upkeep = h.upkeep := by
  unfold Hub.endSettle at e
  split at e
  · split at e <;> cases e
    rfl
  · cases e

/-! ### Lease timers -/

theorem expire_lease_upkeep {h g : Hub} {id : LeaseId} (e : h.expireLease id = some g) : g.upkeep = h.upkeep := by
  unfold Hub.expireLease at e
  split at e
  · split at e <;> cases e
    simp
  · cases e

theorem pass_deadline_upkeep {h g : Hub} {p : Port} {tag : Byte} (e : h.passDeadline p tag = some g) :
    g.upkeep = h.upkeep := by
  unfold Hub.passDeadline at e
  split at e
  · cases e
    simp
  · split at e <;> cases e
    simp

end Sys2Proof.Machine
end

section
/-! SUPPORT. Proofs of the statements on the upkeep unit (chapter 3): what the completion of an UPKEEP and the expiry of the
interval timer do, and all that a step can do to the debt and the level, from which the law of the debt follows. -/

namespace Sys2Proof.Safety

open Sys2Proof.Machine

/-! ### UPKEEP_COMPLETE (R60, R61, R110, R112, R129) -/

/-- The hub at the completion, at `t`, of the UPKEEP in flight, with its account paid. -/
def upkeepPaid (h : Hub) (t : Nat) : Hub :=
  { h.reach t with scheduler := { h.scheduler with flight := none }, upkeep := h.upkeep.paid }

/-- Outside bring-up the completion ends LEAVING if its step is the exit UPKEEP and no change is pending, and otherwise does
no more than pay the account. -/
theorem complete_upkeep_outside_bringup {h : Hub} {t : Nat} (flying : h.scheduler.flight = some ⟨.upkeep, t⟩)
    (outside : h.config.bringup = none) :
    h.completeUpkeep = some
      (if h.channel = .leaving ∧ h.rest.leaving = some .exitUpkeep ∧ h.config.change = none then
        (upkeepPaid h t).becomeServing.notifyUp .channelState 2
      else upkeepPaid h t) := by
  simp only [Hub.completeUpkeep, Hub.landed, flying, if_true, Option.map_some, Hub.reach_config, outside]
  rfl

/-- In bring-up the completion ends it if no more than this UPKEEP was left, and otherwise leaves one fewer. -/
theorem complete_upkeep_in_bringup {h : Hub} {t : Nat} {r : Bringup} (flying : h.scheduler.flight = some ⟨.upkeep, t⟩)
    (inside : h.config.bringup = some r) :
    h.completeUpkeep = some
      (if r.upkeepsLeft ≤ 1 then (upkeepPaid h t).endBringup r
      else
        { upkeepPaid h t with
          config := { h.config with bringup := some { r with upkeepsLeft := r.upkeepsLeft - 1 } } }) := by
  simp only [Hub.completeUpkeep, Hub.landed, flying, if_true, Option.map_some, Hub.reach_config, inside,
    Nat.sub_eq_zero_iff_le]
  rfl

/-- UPKEEP_COMPLETE out of reset, given what the hub makes of it. -/
theorem exec_upkeep_complete_after {s : State} {g : Hub} (running : Running s) (completes : s.hub.completeUpkeep = some g) :
    exec .upkeepComplete s = after s g := (exec_upkeep_complete s).trans (perform_after running completes)

/-- Settles O48: the completion pays the account, and then its three outcomes are told apart by the bring-up record and the
leaving step. -/
theorem upkeepCompletionPaysTheDebt : Obligations.UpkeepCompletionPaysTheDebt := by
  unfold Obligations.UpkeepCompletionPaysTheDebt
  intro s t running flying
  refine ⟨?_, ?_, ?_⟩
  · intro outside stays
    have completes := complete_upkeep_outside_bringup flying outside
    rw [if_neg stays] at completes
    exact exec_upkeep_complete_after running completes
  · intro outside leaving step nothing
    have completes := complete_upkeep_outside_bringup flying outside
    rw [if_pos ⟨leaving, step, nothing⟩] at completes
    exact exec_upkeep_complete_after running completes
  · intro r inside
    have completes := complete_upkeep_in_bringup flying inside
    constructor
    · intro more
      rw [if_neg (Nat.not_le.2 more)] at completes
      exact exec_upkeep_complete_after running completes
    · intro last
      rw [if_pos last] at completes
      exact exec_upkeep_complete_after running completes

/-! ### INTERVAL_TIMER_EXPIRY (R58, R59, R61, R70) -/

/-- The hub at the expiry, at `t`, of the interval timer, which is loaded again, with the upkeep unit `u` but for the timer. -/
def intervalPassed (h : Hub) (t : Nat) (u : UpkeepUnit) : Hub :=
  { h.reach t with upkeep := { u with timer := some (t + h.config.committed.upkeepInterval) } }

/-- A hub whose overrun count has risen, of which the holder of the control role is told (R70). -/
def overrunTold (h : Hub) : Hub :=
  match h.config.holder with
  | some p => h.notify p .upkeepOverrun h.upkeep.overruns none
  | none => h

/-- The expiry raises the debt where it is below 12, and counts an overrun where it is not. -/
theorem interval_expiry_eq {h : Hub} {t : Nat} (loaded : h.upkeep.timer = some t) :
    h.intervalExpiry = some
      (if h.upkeep.debt < 12 then
        intervalPassed h t
          { h.upkeep with debt := h.upkeep.debt + 1, level := urgencyAfter h.upkeep.level (h.upkeep.debt + 1) }
      else overrunTold (intervalPassed h t { h.upkeep with overruns := rise32 h.upkeep.overruns })) := by
  rw [apply_ite some]
  simp only [Hub.intervalExpiry, loaded]
  rfl

/-- INTERVAL_TIMER_EXPIRY out of reset, given what the hub makes of it. -/
theorem exec_interval_timer_expiry_after {s : State} {g : Hub} (running : Running s)
    (expires : s.hub.intervalExpiry = some g) : exec .intervalTimerExpiry s = after s g :=
  (exec_interval_timer_expiry s).trans (perform_after running expires)

@[simp] theorem overrun_told_upkeep (h : Hub) : (overrunTold h).upkeep = h.upkeep := by
  unfold overrunTold
  split <;> rfl

/-! ### All that a step can do to the debt and the level -/

/-- What an event does to the account of the upkeep unit: `u` becomes `v` (R59 to R62). -/
inductive AccountMove (u v : UpkeepUnit) : Prop where
  /-- It leaves the account. -/
  | kept (same : v.account = u.account)
  /-- The interval timer has expired with the debt below 12. -/
  | risen (below : u.debt < 12) (account : v.account = (u.debt + 1, urgencyAfter u.level (u.debt + 1)))
  /-- An UPKEEP has completed. -/
  | paid (account : v.account = (u.debt - 1, urgencyAfter u.level (u.debt - 1)))
  /-- The timer is stopped, or the unit is at its values after bring-up or a reset. -/
  | cleared (account : v.account = (0, .clear))

/-- An effect that leaves the upkeep unit leaves its account. -/
theorem account_kept {u v : UpkeepUnit} (same : v = u) : AccountMove u v := .kept (congrArg UpkeepUnit.account same)

/-- The end of an event leaves the account. -/
theorem settle_account (h : Hub) : h.settle.upkeep.account = h.upkeep.account := by
  obtain ⟨_, _, _, _, _, _, _, _, e, _⟩ := settle_frame h
  rw [e]
  rfl

/-- What has landed was in flight. -/
theorem landed_flight {h g : Hub} {c : ChannelCommand} (e : h.landed c = some g) :
    ∃ t, h.scheduler.flight = some ⟨c, t⟩ := by
  unfold Hub.landed at e
  split at e
  next f flying =>
    split at e <;> cases e
    next same => exact ⟨f.doneAt, by rw [flying, ← same]⟩
  next => cases e

/-- The end of bring-up leaves nothing owed (R129). -/
theorem end_bringup_account (h : Hub) (r : Bringup) : (h.endBringup r).upkeep.account = (0, .clear) := by
  unfold Hub.endBringup
  dsimp only
  split <;> simp [UpkeepUnit.account]

theorem complete_upkeep_moves {h g : Hub} (e : h.completeUpkeep = some g) : AccountMove h.upkeep g.upkeep := by
  obtain ⟨k, landed, _⟩ := Option.map_eq_some_iff.1 e
  obtain ⟨t, flying⟩ := landed_flight landed
  cases bringup : h.config.bringup with
  | none =>
    rw [complete_upkeep_outside_bringup flying bringup] at e
    cases e
    refine .paid ?_
    split
    · rw [Hub.notifyUp_upkeep, become_serving_upkeep]
      rfl
    · rfl
  | some r =>
    rw [complete_upkeep_in_bringup flying bringup] at e
    cases e
    split
    · exact .cleared (end_bringup_account _ r)
    · exact .paid rfl

theorem interval_expiry_moves {h g : Hub} (e : h.intervalExpiry = some g) : AccountMove h.upkeep g.upkeep := by
  cases timer : h.upkeep.timer with
  | none => simp [Hub.intervalExpiry, timer] at e
  | some t =>
    rw [interval_expiry_eq timer] at e
    cases e
    split
    next below => exact .risen below rfl
    next => exact .kept (by rw [overrun_told_upkeep]; rfl)

theorem issue_retain_enter_moves {h g : Hub} (e : h.issueRetainEnter = some g) : AccountMove h.upkeep g.upkeep := by
  unfold Hub.issueRetainEnter at e
  dsimp only at e
  split at e <;> cases e
  exact .cleared rfl

theorem copy_moves {h g : Hub} (e : h.copy = some g) : AccountMove h.upkeep g.upkeep := by
  unfold Hub.copy at e
  split at e
  · split at e <;> cases e
    exact .cleared rfl
  · cases e

theorem reset_event_moves {h g : Hub} (e : h.resetEvent = some g) : AccountMove h.upkeep g.upkeep := by
  unfold Hub.resetEvent at e
  split at e
  · split at e <;> cases e
    refine .cleared ?_
    split <;> rfl
  · cases e

/-- The account across a command that `State.perform` runs, given what its effect on the hub does. -/
theorem command_moves {s t : State} {c : Instr} {f : Hub → Option Hub} (runs : ∀ s, exec c s = s.perform f)
    (e : exec c s = .next t) (moves : ∀ {g}, f s.hub = some g → AccountMove s.hub.upkeep g.upkeep) :
    AccountMove s.hub.upkeep t.hub.upkeep := by
  rcases perform_cases ((runs s).symm.trans e) with rfl | ⟨g, _, takes, rfl⟩
  · exact account_kept rfl
  · have settled := settle_account g
    cases moves takes with
    | kept same => exact .kept (settled.trans same)
    | risen below account => exact .risen below (settled.trans account)
    | paid account => exact .paid (settled.trans account)
    | cleared account => exact .cleared (settled.trans account)

/-- The account across a command whose effect leaves the upkeep unit. -/
theorem command_keeps {s t : State} {c : Instr} {f : Hub → Option Hub} (runs : ∀ s, exec c s = s.perform f)
    (e : exec c s = .next t) (keeps : ∀ {g}, f s.hub = some g → g.upkeep = s.hub.upkeep) :
    AccountMove s.hub.upkeep t.hub.upkeep := command_moves runs e (fun takes => account_kept (keeps takes))

theorem exec_reset_line_asserted (s : State) : exec .resetLineAsserted s =
    if s.hub.resetLow then .next s else .next { s with hub := Hub.inReset (s.hub.dram.epoch + 1) } := rfl

theorem exec_reset_line_released (s : State) : exec .resetLineReleased s =
    if s.hub.resetLow then .next { s with hub := Hub.powerUp s.hub.dram.epoch } else .next s := rfl

theorem reset_line_asserted_moves {s t : State} (e : exec .resetLineAsserted s = .next t) :
    AccountMove s.hub.upkeep t.hub.upkeep := by
  rw [exec_reset_line_asserted] at e
  split at e <;> cases e
  · exact account_kept rfl
  · exact .cleared rfl

theorem reset_line_released_moves {s t : State} (e : exec .resetLineReleased s = .next t) :
    AccountMove s.hub.upkeep t.hub.upkeep := by
  rw [exec_reset_line_released] at e
  split at e <;> cases e
  · exact .cleared rfl
  · exact account_kept rfl

/-- The account across a column command, which starts a burst. -/
theorem column_keeps {s t : State} {i : Index} {kind : Access} (e : s.column i kind = .next t) :
    AccountMove s.hub.upkeep t.hub.upkeep := by
  rcases column_cases e with rfl | ⟨x, _, _, _, _, _, rfl⟩
  · exact account_kept rfl
  · exact .kept (settle_account (s.hub.startBurst x))

/-- All that a command can do to the account: only the completion of an UPKEEP, the expiry of the interval timer, the entry
into retention, the copy of a commit and the resets move it. -/
theorem exec_moves {s t : State} {c : Instr} (e : exec c s = .next t) : AccountMove s.hub.upkeep t.hub.upkeep := by
  cases c with
  | read p => exact command_moves (exec_read p) e (fun takes => .kept (take_read_account takes))
  | write p => exact command_moves (exec_write p) e (fun takes => .kept (take_write_account takes))
  | fence p => exact command_keeps (exec_fence p) e take_fence_upkeep
  | leaseTake p => exact command_keeps (exec_lease_take p) e take_lease_take_upkeep
  | leaseDrop p => exact command_keeps (exec_lease_drop p) e take_lease_drop_upkeep
  | leaseRenew p => exact command_keeps (exec_lease_renew p) e take_lease_renew_upkeep
  | rest p => exact command_keeps (exec_rest p) e take_rest_upkeep
  | wake p => exact command_moves (exec_wake p) e (fun takes => .kept (take_wake_account takes))
  | query p => exact command_keeps (exec_query p) e take_query_upkeep
  | configSet p => exact command_keeps (exec_config_set p) e take_config_set_upkeep
  | configCommit p => exact command_keeps (exec_config_commit p) e take_config_commit_upkeep
  | windowSet p => exact command_keeps (exec_window_set p) e take_window_set_upkeep
  | handover p => exact command_keeps (exec_handover p) e take_handover_upkeep
  | claim p => exact command_keeps (exec_claim p) e take_claim_upkeep
  | hubReset p => exact command_keeps (exec_hub_reset p) e take_hub_reset_upkeep
  | malformedMessage p => exact command_keeps (exec_malformed_message p) e take_malformed_upkeep
  | placeReply p => exact command_keeps (exec_place_reply p) e place_reply_upkeep
  | placeNotice p => exact command_keeps (exec_place_notice p) e place_notice_upkeep
  | messageFrameReceived p line => exact command_keeps (exec_message_frame_received p line) e message_frame_upkeep
  | ackReceived p line => exact command_keeps (exec_ack_received p line) e ack_frame_upkeep
  | nakReceived p line => exact command_keeps (exec_nak_received p line) e nak_frame_upkeep
  | alignReceived p line => exact command_keeps (exec_align_received p line) e align_frame_upkeep
  | readyReceived p line => exact command_keeps (exec_ready_received p line) e ready_frame_upkeep
  | corruptFrame p line => exact command_keeps (exec_corrupt_frame p line) e corrupt_frame_upkeep
  | trainingTimerExpiry p => exact command_keeps (exec_training_timer_expiry p) e training_expiry_upkeep
  | alignSent p => exact command_keeps (exec_align_sent p) e send_align_upkeep
  | readySent p => exact command_keeps (exec_ready_sent p) e send_ready_upkeep
  | ackSent p => exact command_keeps (exec_ack_sent p) e send_ack_upkeep
  | messageFrameSent p => exact command_keeps (exec_message_frame_sent p) e send_message_upkeep
  | frameResent p => exact command_keeps (exec_frame_resent p) e resend_frame_upkeep
  | replayTimerExpiry p => exact command_keeps (exec_replay_timer_expiry p) e replay_expiry_upkeep
  | roomTimerExpiry p => exact command_keeps (exec_room_timer_expiry p) e room_expiry_upkeep
  | resetLineAsserted => exact reset_line_asserted_moves e
  | resetLineReleased => exact reset_line_released_moves e
  | rowOpen b => exact command_keeps (exec_row_open b) e issue_row_open_upkeep
  | rowClose b => exact command_keeps (exec_row_close b) e issue_row_close_upkeep
  | bankOpened b => exact command_keeps (exec_bank_opened b) e bank_opens_upkeep
  | bankClosed b => exact command_keeps (exec_bank_closed b) e bank_closes_upkeep
  | openMarkPassed b => exact command_keeps (exec_open_mark_passed b) e pass_open_mark_upkeep
  | writeRecoveryMarkPassed b => exact command_keeps (exec_write_recovery_mark_passed b) e pass_write_mark_upkeep
  | colRead i => exact column_keeps e
  | colWrite i => exact column_keeps e
  | colReadComplete flips => exact command_keeps (exec_col_read_complete flips) e complete_read_upkeep
  | colWriteComplete => exact command_keeps exec_col_write_complete e complete_write_upkeep
  | allClose => exact command_keeps exec_all_close e issue_all_close_upkeep
  | allCloseComplete => exact command_keeps exec_all_close_complete e complete_all_close_upkeep
  | modeLoad => exact command_keeps exec_mode_load e issue_mode_load_upkeep
  | modeLoadComplete => exact command_keeps exec_mode_load_complete e complete_mode_load_upkeep
  | upkeep => exact command_keeps exec_upkeep e issue_upkeep_upkeep
  | upkeepComplete => exact command_moves exec_upkeep_complete e complete_upkeep_moves
  | retainEnter => exact command_moves exec_retain_enter e issue_retain_enter_moves
  | retainExit => exact command_keeps exec_retain_exit e issue_retain_exit_upkeep
  | retainExitComplete => exact command_keeps exec_retain_exit_complete e complete_retain_exit_upkeep
  | intervalTimerExpiry => exact command_moves exec_interval_timer_expiry e interval_expiry_moves
  | leaseExpiry id => exact command_keeps (exec_lease_expiry id) e expire_lease_upkeep
  | waitDeadline p tag => exact command_keeps (exec_wait_deadline p tag) e pass_deadline_upkeep
  | settleEnd => exact command_keeps exec_settle_end e end_settle_upkeep
  | commitCopy => exact command_moves exec_commit_copy e copy_moves
  | resetEvent => exact command_moves exec_reset_event e reset_event_moves

theorem tick_upkeep (h : Hub) : h.tick.upkeep = h.upkeep := by
  unfold Hub.tick
  split <;> rfl

/-- All that a step can do to the account. -/
theorem step_moves {s t : State} (e : step s = .next t) : AccountMove s.hub.upkeep t.hub.upkeep := by
  rcases step_cases e with ⟨_, rfl⟩ | ⟨c, rest, _, run⟩
  · exact account_kept (tick_upkeep s.hub)
  · exact exec_moves (s := { s with pending := rest }) run

/-! ### The law of the debt (R59, R61) -/

/-- The law of the debt, said of the account alone. -/
def AccountLaw (a : Nat × Urgency) : Prop := a.1 ≤ 12 ∧ (a.2 = urgencyOf a.1 ∨ (a.2 = .critical ∧ 8 ≤ a.1))

theorem debt_law_iff (h : Hub) : DebtLaw h ↔ AccountLaw h.upkeep.account := Iff.rfl

/-- The level worked out for a debt of at most 12 is one that the law allows, whatever it was before (R61). -/
theorem account_law_worked_out (before : Urgency) {debt : Nat} (bound : debt ≤ 12) :
    AccountLaw (debt, urgencyAfter before debt) := by
  refine ⟨bound, ?_⟩
  unfold urgencyAfter
  split
  next critical => exact .inr ⟨rfl, critical.2⟩
  next => exact .inl rfl

/-- No move of the account breaks the law. -/
theorem account_move_keeps_law {u v : UpkeepUnit} (law : AccountLaw u.account) (move : AccountMove u v) :
    AccountLaw v.account := by
  have bound : u.debt ≤ 12 := law.1
  cases move with
  | kept same => rwa [same]
  | risen below account => exact account ▸ account_law_worked_out u.level below
  | paid account => exact account ▸ account_law_worked_out u.level ((Nat.sub_le _ _).trans bound)
  | cleared account => exact account ▸ ⟨Nat.zero_le _, .inl rfl⟩

theorem debt_law_kept : KeptByEveryStep DebtLaw := by
  intro s t law e
  rw [debt_law_iff] at law ⊢
  exact account_move_keeps_law law (step_moves e)

/-- The table of R61 with each level's debts bounded from above. -/
theorem urgency_of_eq (debt : Nat) :
    urgencyOf debt = if debt < 1 then .clear else if debt < 4 then .lax else if debt < 8 then .due
      else if debt < 11 then .urgent else .critical := by
  simp only [urgencyOf, Nat.lt_succ_iff, Nat.le_zero]

/-- Settles O49: the expiry is `interval_expiry_eq`, and the law of the debt holds because each of the few moves a step can
make of the account keeps it. -/
theorem intervalExpiryRaisesTheDebtOrCountsAnOverrun : Obligations.IntervalExpiryRaisesTheDebtOrCountsAnOverrun := by
  unfold Obligations.IntervalExpiryRaisesTheDebtOrCountsAnOverrun
  refine ⟨?_, debt_law_kept, urgency_of_eq⟩
  intro s t running loaded
  have expires := interval_expiry_eq loaded
  constructor
  · intro below
    rw [if_pos (Nat.lt_succ_of_le below)] at expires
    exact exec_interval_timer_expiry_after running expires
  · intro full
    rw [if_neg (Nat.not_lt.2 full)] at expires
    exact exec_interval_timer_expiry_after running expires

end Sys2Proof.Safety
end

section
/-! SUPPORT. Proof of the statement on LEASE_DROP and LEASE_RENEW (chapter 4). Both requests pass the same checks before
they act on the lease that their handle names; the ids of the slots tell that lease from every other. -/

namespace Sys2Proof.Safety

open Sys2Proof.Machine

/-! ### Slots and their ids (R73, R75) -/

/-- Two slots of the lease table with one id are the same slot. -/
theorem slot_eq_of_id_eq {h : Hub} {x y : LeaseSlot} (law : SlotsLaw h) (hx : x ∈ h.leases.slots)
    (hy : y ∈ h.leases.slots) (same : x.id = y.id) : x = y :=
  List.inj_on_of_nodup_map (law ▸ List.nodup_finRange 16) hx hy same

/-- An update of the slot with the id of a known slot works on that slot's own record. -/
theorem on_slot_of_mem {h : Hub} {x : LeaseSlot} (law : SlotsLaw h) (hx : x ∈ h.leases.slots)
    (f : LeaseSlot → LeaseSlot) :
    h.leases.onSlot x.id f =
      { h.leases with slots := h.leases.slots.map (fun y => if y.id = x.id then f x else y) } := by
  have slots : h.leases.slots.map (fun y => if y.id = x.id then f y else y) =
      h.leases.slots.map (fun y => if y.id = x.id then f x else y) := by
    refine List.map_congr_left fun y hy => ?_
    split_ifs with same
    · rw [slot_eq_of_id_eq law hy hx same]
    · rfl
  rw [LeaseUnit.onSlot, slots]

/-! ### The lease that a handle names (R75) -/

/-- The handle of port `p` names the slot `x`, which holds the GRANTED lease `l` of the port. -/
def HandleNames (p : Port) (id : Nat) (generation : Byte) (x : LeaseSlot) (l : Lease) : Prop :=
  x.id.val = id ∧ x.generation = generation ∧ x.lease = some l ∧ l.owner = p ∧ ∃ expiry, l.phase = .granted expiry

/-- What the search for a handle's slot finds is named by the handle. -/
theorem named_slot_some {h : Hub} {p : Port} {id : Nat} {generation : Byte} {x : LeaseSlot}
    (found : h.namedSlot p id generation = some x) : x ∈ h.leases.slots ∧ ∃ l, HandleNames p id generation x l := by
  refine ⟨List.mem_of_find?_eq_some found, ?_⟩
  have passes := List.find?_some found
  rw [Bool.and_eq_true, Bool.and_eq_true, beq_iff_eq, beq_iff_eq] at passes
  obtain ⟨⟨same_id, same_generation⟩, owned⟩ := passes
  split at owned
  next owner base length mode expiry lease =>
    exact ⟨_, same_id, same_generation, lease, beq_iff_eq.1 owned, expiry, rfl⟩
  next => cases owned

/-- Where the search finds nothing, the handle names no slot of the table. -/
theorem named_slot_none {h : Hub} {p : Port} {id : Nat} {generation : Byte} {x : LeaseSlot} {l : Lease}
    (missing : h.namedSlot p id generation = none) (hx : x ∈ h.leases.slots) : ¬ HandleNames p id generation x l := by
  obtain ⟨owner, base, length, mode, phase⟩ := l
  rintro ⟨same_id, same_generation, lease, rfl, expiry, rfl⟩
  apply List.find?_eq_none.1 missing x hx
  simp only [same_id, same_generation, lease, beq_self_eq_true, Bool.and_self]

/-- A slot that the handle names is the one that the search finds, because no other slot has its id. -/
theorem named_slot_of_names {h : Hub} {p : Port} {id : Nat} {generation : Byte} {x : LeaseSlot} {l : Lease}
    (law : SlotsLaw h) (hx : x ∈ h.leases.slots) (names : HandleNames p id generation x l) :
    h.namedSlot p id generation = some x := by
  cases found : h.namedSlot p id generation with
  | none => exact absurd names (named_slot_none found hx)
  | some y =>
    obtain ⟨hy, _, same_id, _⟩ := named_slot_some found
    rw [slot_eq_of_id_eq law hy hx (Fin.ext (same_id.trans names.1.symm))]

/-- Where the handle names no GRANTED lease of the port, the search finds no slot. -/
theorem named_slot_of_no_lease {h : Hub} {p : Port} {id : Nat} {generation : Byte}
    (nothing : ¬ ∃ x l, x ∈ h.leases.slots ∧ HandleNames p id generation x l) : h.namedSlot p id generation = none := by
  rw [Option.eq_none_iff_forall_ne_some]
  intro x found
  obtain ⟨hx, l, names⟩ := named_slot_some found
  exact nothing ⟨x, l, hx, names⟩

/-! ### The checks of R91 and R92 -/

/-- What a request with a handle comes to: the refusals in the order of R91 and R92, and then `act` on the slot named. -/
def handleOutcome (h : Hub) (p : Port) (tag : Byte) (id : Nat) (generation : Byte) (malformed : Prop)
    [Decidable malformed] (act : LeaseSlot → Hub) : Hub :=
  if malformed then h.refuse p tag .malformed 0
  else if h.tagInUse p tag then h.refuse p tag .tagInUse 0
  else match h.namedSlot p id generation with
    | none => h.refuse p tag .noLease 0
    | some x => act x

theorem drop_lease_eq (h : Hub) (p : Port) (tag : Byte) (id : Nat) (generation : Byte) (reserved : Nat) :
    h.dropLease p tag id generation reserved =
      handleOutcome h p tag id generation (reserved ≠ 0) (fun x => (h.leaseLeaves x.id).accept p tag) := rfl

theorem renew_lease_eq (h : Hub) (p : Port) (tag : Byte) (id : Nat) (generation : Byte) (duration reserved : Nat) :
    h.renewLease p tag id generation duration reserved =
      handleOutcome h p tag id generation (reserved ≠ 0 ∨ duration = 0) (fun x => Hub.accept
        { h with leases := h.leases.onSlot x.id (fun y =>
            { y with lease := y.lease.map (fun l => { l with phase := .granted (h.hubTime + duration) }) }) }
        p tag) := rfl

section
variable {h : Hub} {p : Port} {tag : Byte} {id : Nat} {generation : Byte} {malformed : Prop} [Decidable malformed]
  {act : LeaseSlot → Hub}

theorem handle_malformed (bad : malformed) :
    handleOutcome h p tag id generation malformed act = h.refuse p tag .malformed 0 := if_pos bad

theorem handle_tag_in_use (good : ¬ malformed) (used : h.tagInUse p tag = true) :
    handleOutcome h p tag id generation malformed act = h.refuse p tag .tagInUse 0 := by
  rw [handleOutcome, if_neg good, if_pos used]

theorem handle_no_lease (good : ¬ malformed) (free : h.tagInUse p tag = false)
    (nothing : ¬ ∃ x l, x ∈ h.leases.slots ∧ HandleNames p id generation x l) :
    handleOutcome h p tag id generation malformed act = h.refuse p tag .noLease 0 := by
  rw [handleOutcome, if_neg good, if_neg (Bool.eq_false_iff.1 free), named_slot_of_no_lease nothing]

theorem handle_named {x : LeaseSlot} {l : Lease} (law : SlotsLaw h) (good : ¬ malformed)
    (free : h.tagInUse p tag = false) (hx : x ∈ h.leases.slots) (names : HandleNames p id generation x l) :
    handleOutcome h p tag id generation malformed act = act x := by
  rw [handleOutcome, if_neg good, if_neg (Bool.eq_false_iff.1 free), named_slot_of_names law hx names]

end

/-! ### LEASE_DROP and LEASE_RENEW -/

/-- A LEASE_DROP that is taken goes through the checks of R91. -/
theorem exec_lease_drop_taken {s : State} {p : Port} {m : List Byte} {rest : List (List Byte)} {tag : Byte} {id : Nat}
    {generation : Byte} {reserved : Nat} (taking : Taking s p m rest)
    (parsed : parseRequest m = some (.leaseDrop tag id generation reserved)) :
    exec (.leaseDrop p) s = after s ((s.hub.afterTaking p rest).dropLease p tag id generation reserved) :=
  (exec_lease_drop p s).trans
    (perform_after taking.running (by simp only [Hub.takeLeaseDrop, taking_request taking parsed]))

/-- A LEASE_RENEW that is taken goes through the checks of R92. -/
theorem exec_lease_renew_taken {s : State} {p : Port} {m : List Byte} {rest : List (List Byte)} {tag : Byte} {id : Nat}
    {generation : Byte} {duration reserved : Nat} (taking : Taking s p m rest)
    (parsed : parseRequest m = some (.leaseRenew tag id generation duration reserved)) :
    exec (.leaseRenew p) s = after s ((s.hub.afterTaking p rest).renewLease p tag id generation duration reserved) :=
  (exec_lease_renew p s).trans
    (perform_after taking.running (by simp only [Hub.takeLeaseRenew, taking_request taking parsed]))

/-- The renewal of a lease that stands in a known slot gives it the new expiry there, and moves no other slot (R92). -/
theorem renewed_slots {h : Hub} {x : LeaseSlot} {l : Lease} (law : SlotsLaw h) (hx : x ∈ h.leases.slots)
    (held : x.lease = some l) (expiry : Nat) :
    h.leases.onSlot x.id (fun y => { y with lease := y.lease.map (fun k => { k with phase := .granted expiry }) }) =
      { h.leases with slots := h.leases.slots.map (fun y =>
          if y.id = x.id then { x with lease := some { l with phase := .granted expiry } } else y) } := by
  rw [on_slot_of_mem law hx, held, Option.map_some]

/-- Settles O9: the checks of R91 and R92 are those of `handleOutcome`, on a hub whose tags, leases and hub timer the taking
has left as they were. -/
theorem leaseDropAndRenewActOnANamedLease : Obligations.LeaseDropAndRenewActOnANamedLease := by
  unfold Obligations.LeaseDropAndRenewActOnANamedLease
  intro s p m rest tag id generation duration reserved taking law
  have tags := after_taking_tag s.hub p rest tag
  have law : SlotsLaw (s.hub.afterTaking p rest) := law
  constructor
  · intro parsed
    rw [exec_lease_drop_taken taking parsed, drop_lease_eq]
    refine ⟨fun bad => ?_, fun zero used => ?_, fun zero free nothing => ?_, ?_⟩
    · rw [handle_malformed bad]
    · rw [handle_tag_in_use (not_not.2 zero) (tags.trans used)]
    · rw [handle_no_lease (not_not.2 zero) (tags.trans free) nothing]
    · rintro x l zero free ⟨hx, names⟩
      rw [handle_named law (not_not.2 zero) (tags.trans free) hx names]
      rfl
  · intro parsed
    rw [exec_lease_renew_taken taking parsed, renew_lease_eq]
    have good (zero : reserved = 0) (lasts : duration ≠ 0) : ¬ (reserved ≠ 0 ∨ duration = 0) := by omega
    refine ⟨fun bad => ?_, fun zero lasts used => ?_, fun zero lasts free nothing => ?_, ?_⟩
    · rw [handle_malformed bad]
    · rw [handle_tag_in_use (good zero lasts) (tags.trans used)]
    · rw [handle_no_lease (good zero lasts) (tags.trans free) nothing]
    · rintro x l zero lasts free ⟨hx, names⟩
      rw [handle_named law (good zero lasts) (tags.trans free) hx names]
      obtain ⟨_, _, held, _⟩ := names
      rw [renewed_slots law hx held]
      rfl

end Sys2Proof.Safety
end

section
/-! SUPPORT. Proofs of the statements on CONFIG_COMMIT, CLAIM and HANDOVER (chapter 6). Each request is refused by the first
condition of a table that holds, or decided; the checks that open a request of the configuration unit (R116) are settled
once, for every request that makes them. -/

namespace Sys2Proof.Safety

open Sys2Proof.Machine

/-! ### Tables of checks -/

/-- A request of port `p` decided by a table: refused by the first condition that holds, or `taken` where none does. -/
def decidedBy (table : List (Bool × Status × Nat)) (h : Hub) (p : Port) (tag : Byte) (taken : Hub) : Hub :=
  (firstThatHolds table).elim taken (fun r => h.refuse p tag r.1 r.2)

/-- What a command does whose request a table decides. -/
theorem exec_decided {c : Instr} {s : State} {table : List (Bool × Status × Nat)} {h : Hub} {p : Port} {tag : Byte}
    {taken : Hub} (outcome : exec c s = after s (decidedBy table h p tag taken)) :
    (∀ status detail, firstThatHolds table = some (status, detail) →
      exec c s = after s (h.refuse p tag status detail)) ∧
      (firstThatHolds table = none → exec c s = after s taken) := by
  constructor
  · intro status detail refuses
    rw [outcome, decidedBy, refuses, Option.elim_some]
  · intro passes
    rw [outcome, decidedBy, passes, Option.elim_none]

/-! ### The checks of R116, and BUSY (R123, R131) -/

theorem role_check_eq (h : Hub) (p : Port) (tag : Byte) (malformed : Bool) :
    h.roleCheck p tag malformed = firstThatHolds (roleTable h p tag malformed) := by
  simp only [roleTable, first_that_holds_cons, first_that_holds_nil, bne_iff_ne]
  rfl

/-- A taking moves nothing that the checks of R116 read. -/
theorem role_table_after_taking (h : Hub) (p : Port) (rest : List (List Byte)) (tag : Byte) (malformed : Bool) :
    roleTable (h.afterTaking p rest) p tag malformed = roleTable h p tag malformed := by
  simp only [roleTable, after_taking_layer, if_true]
  rfl

/-- A request that passes the checks of R116 is not malformed. -/
theorem not_malformed_of_role_passes {h : Hub} {p : Port} {tag : Byte} {malformed : Bool}
    (passes : firstThatHolds (roleTable h p tag malformed) = none) : malformed = false := by
  cases malformed with
  | false => rfl
  | true => cases passes

/-- BUSY while the channel is BRINGUP or a change is pending (R123, R131). -/
def busyRow (h : Hub) : Bool × Status × Nat := (h.channel == .bringup || h.config.change.isSome, .busy, 1)

theorem commit_check_eq (h : Hub) (p : Port) (tag : Byte) (malformed : Bool) :
    h.commitCheck p tag malformed = firstThatHolds (roleTable h p tag malformed ++ [busyRow h]) := by
  rw [Hub.commitCheck, role_check_eq, first_that_holds_append]
  cases firstThatHolds (roleTable h p tag malformed) with
  | some refusal => rfl
  | none => simp only [busyRow, first_that_holds_cons, first_that_holds_nil, Bool.or_eq_true, beq_iff_eq, Option.none_or]

/-! ### CONFIG_COMMIT (R123, R124) -/

/-- Checks 2 to 6 of R123. -/
def crossTable (h : Hub) (force : Nat) : List (Bool × Status × Nat) :=
  let c := h.config.staged
  [(decide (32 < c.quotaSum), .badParam, 0x01),
    (decide (c.tHoldMin < c.tOpen), .badParam, 0x02),
    (decide (c.upkeepInterval < 4 * c.tUpkeep), .badParam, 0x03),
    (h.windowList.any (beyond c.memorySize), .badParam, 0x40 + (h.windowList.findIdx? (beyond c.memorySize)).getD 0),
    (!h.table.isEmpty && force == 0, .busy, 2)]

/-- The table of R123 is made of the checks of R116, the BUSY of check 1, and the cross-checks. -/
theorem commit_table_eq (h : Hub) (p : Port) (tag : Byte) (force reserved : Nat) :
    commitTable h p tag force reserved =
      (roleTable h p tag (decide (1 < force) || reserved != 0) ++ [busyRow h]) ++ crossTable h force := by
  have windows : h.windowList =
      h.windows.p0.toList ++ h.windows.p1.toList ++ h.windows.p2.toList ++ h.windows.p3.toList := by
    simp only [Hub.windowList, Quad.toList, List.flatMap_cons, List.flatMap_nil, List.append_nil, List.append_assoc]
  rw [crossTable, windows]
  rfl

/-- A taking moves nothing that the table of R123 reads. -/
theorem commit_table_after_taking (h : Hub) (p : Port) (rest : List (List Byte)) (tag : Byte) (force reserved : Nat) :
    commitTable (h.afterTaking p rest) p tag force reserved = commitTable h p tag force reserved := by
  rw [commit_table_eq, commit_table_eq, role_table_after_taking]
  rfl

/-- The cross-checks follow their table, for each value that R123 gives to `force`. -/
theorem cross_check_eq (h : Hub) {force : Nat} (legal : force ≤ 1) :
    h.crossCheck (force == 1) = firstThatHolds (crossTable h force) := by
  have occupied : (h.table ≠ [] ∧ (force == 1) = false) ↔ (!h.table.isEmpty && force == 0) = true := by
    have unforced : force ≠ 1 ↔ force = 0 := by omega
    simp only [beq_eq_false_iff_ne, unforced, Bool.and_eq_true, Bool.not_eq_true', List.isEmpty_eq_false_iff, beq_iff_eq]
  simp only [Hub.crossCheck, crossTable, first_that_holds_cons, first_that_holds_nil, decide_eq_true_eq, occupied,
    ← List.findIdx?_isSome]
  cases h.windowList.findIdx? (beyond h.config.staged.memorySize) <;> rfl

/-- The hub that a commit leaves when it is taken (R124). -/
def commitTaken (h : Hub) (p : Port) (tag : Byte) (force : Nat) : Hub :=
  let geometry := geometryDiffers h.config.staged h.config.committed
  let g := h.commitAborts (force == 1) geometry
  { g with config := { g.config with change := some ⟨.commit (force == 1) geometry, p, tag, false⟩ } }.addTag p tag

/-- `Hub.commit` is decided by the table of R123. -/
theorem commit_eq (h : Hub) (p : Port) (tag : Byte) (force reserved : Nat) :
    h.commit p tag force reserved =
      decidedBy (commitTable h p tag force reserved) h p tag (commitTaken h p tag force) := by
  rw [decidedBy, commit_table_eq, first_that_holds_append, Hub.commit, commit_check_eq]
  cases checked : firstThatHolds (roleTable h p tag (decide (1 < force) || reserved != 0) ++ [busyRow h]) with
  | some refusal => rfl
  | none =>
    rw [first_that_holds_append, Option.or_eq_none_iff] at checked
    obtain ⟨role_passes, _⟩ := checked
    obtain ⟨force_legal, _⟩ := Bool.or_eq_false_iff.1 (not_malformed_of_role_passes role_passes)
    have legal : force ≤ 1 := Nat.not_lt.1 (of_decide_eq_false force_legal)
    rw [cross_check_eq h legal]
    cases firstThatHolds (crossTable h force) <;> rfl

/-- A CONFIG_COMMIT that is taken from the inbound list is refused or taken. -/
theorem exec_config_commit_taken {s : State} {p : Port} {m : List Byte} {rest : List (List Byte)} {tag : Byte}
    {force reserved : Nat} (taking : Taking s p m rest)
    (parsed : parseRequest m = some (.configCommit tag force reserved)) :
    exec (.configCommit p) s = after s ((s.hub.afterTaking p rest).commit p tag force reserved) :=
  (exec_config_commit p s).trans
    (perform_after taking.running (by simp only [Hub.takeConfigCommit, taking_request taking parsed]))

/-- Settles O16: `Hub.commit` follows the table of R123, of which the taking has moved nothing. -/
theorem commitIsRefusedInTheOrderOfR123OrTaken : Obligations.CommitIsRefusedInTheOrderOfR123OrTaken := by
  unfold Obligations.CommitIsRefusedInTheOrderOfR123OrTaken
  intro s p m rest tag force reserved taking parsed
  have outcome := exec_config_commit_taken taking parsed
  rw [commit_eq, commit_table_after_taking] at outcome
  exact exec_decided outcome

/-! ### CLAIM (R117) -/

/-- The refusals of a CLAIM, in order (R117). -/
def claimTable (h : Hub) (p : Port) (tag : Byte) (reserved : Nat) : List (Bool × Status × Nat) :=
  [(reserved != 0, .malformed, 0), (h.tagInUse p tag, .tagInUse, 0),
    (h.config.holder.isSome, .noRole, match h.config.holder with
      | some q => q.val
      | none => 0)]

/-- `Hub.claimRole` is decided by its refusals; where none holds, the role is the claimant's. -/
theorem claim_role_eq (h : Hub) (p : Port) (tag : Byte) (reserved : Nat) :
    h.claimRole p tag reserved = decidedBy (claimTable h p tag reserved) h p tag ((h.giveRole p).accept p tag) := by
  simp only [decidedBy, claimTable, Hub.claimRole, first_that_holds_cons, first_that_holds_nil, bne_iff_ne]
  cases h.config.holder with
  | none =>
    simp only [Option.isSome_none, Bool.false_eq_true, if_false]
    split_ifs <;> rfl
  | some q =>
    simp only [Option.isSome_some, if_true]
    split_ifs <;> rfl

/-- A taking moves nothing that the refusals of a CLAIM read. -/
theorem claim_table_after_taking (h : Hub) (p : Port) (rest : List (List Byte)) (tag : Byte) (reserved : Nat) :
    claimTable (h.afterTaking p rest) p tag reserved = claimTable h p tag reserved := by
  rw [claimTable, after_taking_tag]
  rfl

/-- A CLAIM that is taken is refused, or the role passes. -/
theorem exec_claim_taken {s : State} {p : Port} {m : List Byte} {rest : List (List Byte)} {tag : Byte} {reserved : Nat}
    (taking : Taking s p m rest) (parsed : parseRequest m = some (.claim tag reserved)) :
    exec (.claim p) s = after s ((s.hub.afterTaking p rest).claimRole p tag reserved) :=
  (exec_claim p s).trans (perform_after taking.running (by simp only [Hub.takeClaim, taking_request taking parsed]))

/-! ### HANDOVER (R118) -/

/-- The refusals of a HANDOVER, in order (R116, R118). -/
def handoverTable (h : Hub) (p : Port) (tag : Byte) (target reserved : Nat) : List (Bool × Status × Nat) :=
  roleTable h p tag (decide (3 < target) || reserved != 0) ++
    [((h.link (Fin.ofNat 4 target)).state != .up, .badParam, target)]

/-- `Hub.passRole` is decided by its refusals; where none holds, the role is the target's, and a HANDOVER to the holder
itself is answered and does nothing else. -/
theorem pass_role_eq (h : Hub) (p : Port) (tag : Byte) (target reserved : Nat) :
    h.passRole p tag target reserved = decidedBy (handoverTable h p tag target reserved) h p tag
      (if Fin.ofNat 4 target = p then h.accept p tag else (h.giveRole (Fin.ofNat 4 target)).accept p tag) := by
  have down : h.up (Fin.ofNat 4 target) = false ↔ ((h.link (Fin.ofNat 4 target)).state != .up) = true := by
    rw [Hub.up, bne, Bool.not_eq_true', Hub.link]
  rw [decidedBy, handoverTable, first_that_holds_append, Hub.passRole, role_check_eq]
  cases firstThatHolds (roleTable h p tag (decide (3 < target) || reserved != 0)) with
  | some refusal => rfl
  | none =>
    simp only [first_that_holds_cons, first_that_holds_nil, down, Option.none_or]
    split_ifs <;> rfl

/-- A taking moves no link's state. -/
theorem after_taking_link_state (h : Hub) (p q : Port) (rest : List (List Byte)) :
    ((h.afterTaking p rest).link q).state = (h.link q).state := by
  rw [Hub.link, Hub.afterTaking_links, quad_get_upd]
  by_cases own : q = p
  · subst own
    simp only [if_true, Hub.link]
    split_ifs <;> rfl
  · rw [if_neg own, Hub.link]

/-- A taking moves nothing that the refusals of a HANDOVER read. -/
theorem handover_table_after_taking (h : Hub) (p : Port) (rest : List (List Byte)) (tag : Byte) (target reserved : Nat) :
    handoverTable (h.afterTaking p rest) p tag target reserved = handoverTable h p tag target reserved := by
  rw [handoverTable, role_table_after_taking, after_taking_link_state, handoverTable]

/-- A HANDOVER that is taken is refused, or the role passes. -/
theorem exec_handover_taken {s : State} {p : Port} {m : List Byte} {rest : List (List Byte)} {tag : Byte}
    {target reserved : Nat} (taking : Taking s p m rest)
    (parsed : parseRequest m = some (.handover tag target reserved)) :
    exec (.handover p) s = after s ((s.hub.afterTaking p rest).passRole p tag target reserved) :=
  (exec_handover p s).trans (perform_after taking.running (by simp only [Hub.takeHandover, taking_request taking parsed]))

/-- Settles O18: `Hub.claimRole` and `Hub.passRole` follow the refusals of R117 and R118, of which the taking has moved
nothing. -/
theorem claimAndHandoverMoveTheRole : Obligations.ClaimAndHandoverMoveTheRole := by
  unfold Obligations.ClaimAndHandoverMoveTheRole
  intro s p m rest tag reserved target taking
  constructor
  · intro parsed
    have outcome := exec_claim_taken taking parsed
    rw [claim_role_eq, claim_table_after_taking] at outcome
    exact exec_decided outcome
  · intro parsed
    have outcome := exec_handover_taken taking parsed
    rw [pass_role_eq, handover_table_after_taking] at outcome
    exact exec_decided outcome

end Sys2Proof.Safety
end

section
/-! SUPPORT. Proof of the statement on a good ACK (chapter 10). R173 is read step by step: the frames up to the named one
leave (step 1), the room is taken and may end the full wait (steps 2 and 3), and the resend point is mended (step 4). Each
step has one lemma that gives the fields it moves. -/

namespace Sys2Proof.Safety

open Sys2Proof.Machine

/-! ### The two updates of a received frame -/

/-- Two updates of one item are one update. -/
theorem quad_upd_upd {α : Type} (q : Quad α) (p : Port) (f g : α → α) :
    (q.upd p f).upd p g = q.upd p (fun x => g (f x)) := by
  apply quad_ext
  intro r
  by_cases own : r = p
  · subst own
    simp
  · simp [own]

/-- Two updates of one port's link are one update. -/
theorem on_link_on_link (h : Hub) (p : Port) (f g : Link → Link) :
    (h.onLink p f).onLink p g = h.onLink p (fun l => g (f l)) := by
  rw [Hub.onLink, Hub.onLink_links, quad_upd_upd, Hub.onLink, Hub.onLink]

/-- An update of a port's link puts there what it makes of the link that stands there. -/
theorem on_link_eq_const (h : Hub) (p : Port) (f : Link → Link) : h.onLink p f = h.onLink p (fun _ => f (h.link p)) := rfl

/-! ### Step 1: the frames that leave -/

/-- The frames after the first one with a sequence. -/
theorem frames_after_eq (n : Byte) (fs : List SentFrame) :
    framesAfter n fs = (fs.dropWhile (fun f => f.seq != n)).drop 1 := by
  induction fs with
  | nil => rfl
  | cons f fs ih =>
    rw [framesAfter, List.dropWhile_cons]
    by_cases named : f.seq = n
    · simp [named]
    · simp [named, ih]

/-- Step 1 of R173: the frames up to the one with sequence `n` leave the replay list, if it is there. -/
def releaseUpTo (l : Link) (now : Nat) (n : Byte) : Link :=
  if l.holds n then { l with replay := framesAfter n l.replay }.progress now else l

/-- The replay list after an ACK of `n`. -/
def framesLeft (l : Link) (n : Byte) : List SentFrame :=
  if l.holds n then (l.replay.dropWhile (fun f => f.seq != n)).drop 1 else l.replay

theorem release_up_to_eq (l : Link) (now : Nat) (n : Byte) :
    releaseUpTo l now n =
      { l with
        replay := framesLeft l n
        replays := if l.holds n then 0 else l.replays
        replayTimer :=
          if l.holds n then (if framesLeft l n = [] then none else some (now + 12800)) else l.replayTimer } := by
  unfold releaseUpTo framesLeft
  by_cases held : l.holds n = true
  · simp [held, Link.progress, frames_after_eq, replayTime, periodsPerMicrosecond]
  · simp [held]

/-! ### Steps 2 and 3: the room -/

/-- Steps 2 and 3 of R173: the far-end room is taken, and room ends the full wait, with a resend point if there is none. -/
def takeRoom (l : Link) (room : Nat) : Link :=
  if l.fullWait = true ∧ 0 < room then
    { l with
      farRoom := room
      fullWait := false
      resend := match l.resend with | some q => some q | none => l.replay.head?.map SentFrame.seq }
  else { l with farRoom := room }

theorem take_room_eq (l : Link) (room : Nat) :
    takeRoom l room =
      { l with
        farRoom := room
        fullWait := l.fullWait && room == 0
        resend :=
          if l.fullWait = true ∧ 0 < room ∧ l.resend = none then l.replay.head?.map SentFrame.seq else l.resend } := by
  unfold takeRoom
  by_cases ends : l.fullWait = true ∧ 0 < room
  · obtain ⟨waits, pos⟩ := ends
    cases point : l.resend <;> simp [waits, pos, pos.ne']
  · have goesOn : l.fullWait = (l.fullWait && room == 0) := by
      cases waits : l.fullWait
      · rfl
      · have empty : room = 0 := Nat.eq_zero_of_not_pos fun pos => ends ⟨waits, pos⟩
        simp [empty]
    rw [if_neg ends, if_neg fun all => ends ⟨all.1, all.2.1⟩, ← goesOn]

/-! ### Step 4: the resend point -/

/-- Step 4 of R173 moves the resend point alone: to the head of the replay list, if its frame is not there. -/
theorem mend_resend_eq (l : Link) :
    l.mendResend =
      { l with
        resend := match l.resend with
          | some q => if l.holds q then some q else l.replay.head?.map SentFrame.seq
          | none => none } := by
  unfold Link.mendResend
  cases point : l.resend with
  | none => simp only [← point]
  | some q =>
    by_cases held : l.holds q = true
    · simp only [if_pos held, ← point]
    · simp only [if_neg held]

/-! ### The frame -/

/-- A good ACK is taken in the steps of R173, on the link that has heard a good frame. -/
theorem receive_ack_steps (l : Link) (now : Nat) (n : Byte) (room : Nat) :
    l.receiveAck now n room = (takeRoom (releaseUpTo l.heard now n) room).mendResend := rfl

/-- The resend point after steps 2 and 3 of an ACK. -/
def resendWanted (l : Link) (n : Byte) (room : Nat) : Option Byte :=
  if l.fullWait = true ∧ 0 < room ∧ l.resend = none then (framesLeft l n).head?.map SentFrame.seq else l.resend

/-- What a good ACK received in UP makes of the link (R169, R173). -/
theorem receive_ack_eq (l : Link) (now : Nat) (n : Byte) (room : Nat) :
    l.receiveAck now n room =
      { l with
        corrupt := 0
        replay := framesLeft l n
        replays := if l.holds n then 0 else l.replays
        replayTimer :=
          if l.holds n then (if framesLeft l n = [] then none else some (now + 12800)) else l.replayTimer
        farRoom := room
        fullWait := l.fullWait && room == 0
        resend := match resendWanted l n room with
          | some q => if (framesLeft l n).any (fun f => f.seq == q) then some q else (framesLeft l n).head?.map SentFrame.seq
          | none => none } := by
  rw [receive_ack_steps, mend_resend_eq, take_room_eq, release_up_to_eq]
  rfl

/-- What a port that hears a good ACK makes of its link: R173 in UP, nothing in TRAINING but what hearing does. -/
theorem ack_frame_eq {s : State} {p : Port} {line : List LineSymbol} {frame : List Byte} {r : Receiver} {n : Byte}
    {room : Nat} (hears : Hears s p line (.delimited frame) r) (parsed : parseFrame frame = some (.ack n room)) :
    s.hub.ackFrame p line = some (s.hub.onLink p fun l =>
      if l.state = .up then { l with receiver := r }.receiveAck s.hub.now n room else { l with receiver := r }) := by
  rw [Hub.ackFrame, hears_good hears parsed]
  simp only [Hub.onLink_link, if_true, Hub.onLink_now]
  rw [on_link_eq_const s.hub p fun l => if l.state = .up then _ else _]
  by_cases up : (s.hub.link p).state = .up
  · rw [if_pos up, if_pos up, on_link_on_link]
    rfl
  · rw [if_neg up, if_neg up]
    rfl

/-- ACK_RECEIVED in a hub that is out of reset. -/
theorem exec_ack_heard {s : State} {p : Port} {line : List LineSymbol} {frame : List Byte} {r : Receiver} {n : Byte}
    {room : Nat} (running : Running s) (hears : Hears s p line (.delimited frame) r)
    (parsed : parseFrame frame = some (.ack n room)) :
    exec (.ackReceived p line) s = after s (s.hub.onLink p fun l =>
      if l.state = .up then { l with receiver := r }.receiveAck s.hub.now n room else { l with receiver := r }) :=
  (exec_ack_received p line s).trans (perform_after running (ack_frame_eq hears parsed))

/-- Settles O27: in UP the link is what the four steps of R173 make of it; in TRAINING only the receiving side has moved. -/
theorem ackReleasesFramesAndTakesTheRoom : Obligations.AckReleasesFramesAndTakesTheRoom := by
  unfold Obligations.AckReleasesFramesAndTakesTheRoom
  intro s p line frame r n room hears parsed
  constructor
  · intro ⟨running, up⟩
    rw [exec_ack_heard running hears parsed, on_link_eq_const, if_pos up, receive_ack_eq]
    rfl
  · intro ⟨running, training⟩
    rw [exec_ack_heard running hears parsed, on_link_eq_const, if_neg (by simp [training])]

end Sys2Proof.Safety
end

section
/-! SUPPORT. Proofs of the statements on the machine, on reset and on the reset line (chapters 0 and 11). -/

namespace Sys2Proof.Safety

open Sys2Proof.Machine

/-- Settles O1: a step on a queue with a front command is that command's `exec`, by the definition of `step`. -/
theorem stepRunsTheFrontCommand : Obligations.StepRunsTheFrontCommand := by
  intro c rest s
  rfl

/-- Settles O2, by the two cases of a tick. -/
theorem emptyQueueLetsOnePeriodPass : Obligations.EmptyQueueLetsOnePeriodPass := by
  intro s empty
  refine ⟨fun running => ?_, fun low => ?_⟩
  · have tick : s.hub.tick = { s.hub with now := s.hub.now + 1 } := if_neg (by simp [show s.hub.resetLow = false from running])
    simp only [step, empty, tick]
  · obtain ⟨hub, pending⟩ := s
    subst empty
    have tick : hub.tick = hub := if_pos low
    simp only [step, tick]

/-! ### Power-up -/

@[simp] theorem power_up_link (n : Nat) (p : Port) : (Hub.powerUp n).link p = Link.powerUp := quad_get_all _ _

@[simp] theorem power_up_layer (n : Nat) (p : Port) : (Hub.powerUp n).layer p = MessageLayer.powerUp := quad_get_all _ _

@[simp] theorem power_up_windows (n : Nat) (p : Port) : (Hub.powerUp n).windows.get p = Window.powerUp :=
  quad_get_all _ _

/-- The slots after power-up are free, in order of id, with generation 0 (R101). -/
theorem all_free_eq : LeaseSlot.allFree = (List.finRange 16).map (fun i => ⟨i, 0, none⟩) := by decide

/-- Settles O3, item by item: every value is read off the power-up records. -/
theorem resetLeavesThePowerUpValues : Obligations.ResetLeavesThePowerUpValues := by
  refine ⟨rfl, rfl, rfl, rfl, rfl, fun p => ?_, fun p => ?_, fun p => ?_, rfl, rfl, rfl, rfl, rfl, rfl, rfl, all_free_eq,
    rfl, rfl, rfl, rfl, rfl, rfl, rfl, rfl, rfl, rfl, by decide, rfl, rfl, rfl, rfl⟩
  · simp [State.reset, Link.powerUp, Link.down]
  · simp [State.reset, MessageLayer.powerUp]
  · simp [State.reset, Window.powerUp]

/-! ### The laws after power-up -/

/-- No lease stands in a free slot. -/
theorem power_up_stands_none (n : Nat) (l : Lease) : ¬ Standing (Hub.powerUp n) l := by
  rintro ⟨x, hx, held⟩
  have hx' : x ∈ (List.finRange 16).map (fun i => (⟨i, 0, none⟩ : LeaseSlot)) := all_free_eq ▸ hx
  obtain ⟨i, _, rfl⟩ := List.mem_map.mp hx'
  cases held

theorem power_up_slots_law (n : Nat) : SlotsLaw (Hub.powerUp n) := by
  show LeaseSlot.allFree.map LeaseSlot.id = _
  decide

/-- The one enabled window of a port after power-up (R136). -/
theorem power_up_enabled {n : Nat} {p w : Port} {r : Window} (on : Enabled (Hub.powerUp n) p w r) :
    w = 0 ∧ r = ⟨0, 0x10000000, 0, true, true⟩ := by
  unfold Enabled at on
  rw [power_up_windows] at on
  fin_cases w
  · exact ⟨rfl, by simpa [Window.powerUp, Quad.get] using on.symm⟩
  all_goals cases on

theorem power_up_items_law (n : Nat) : ItemsLaw (Hub.powerUp n) := ⟨rfl, rfl, rfl, rfl⟩

theorem power_up_quota_law (n : Nat) : QuotaLaw (Hub.powerUp n) := by
  refine ⟨List.nodup_nil, fun p => Nat.zero_le _, by show Params.default.quotaSum ≤ 32; decide, ?_⟩
  intro c f g pending _
  cases pending

theorem power_up_windows_inside (n : Nat) : WindowsInside (Hub.powerUp n) := by
  refine ⟨fun p w r on => ?_, fun c f g pending => by cases pending⟩
  obtain ⟨_, rfl⟩ := power_up_enabled on
  show 0 + 0x10000000 ≤ Params.default.memorySize
  decide

theorem power_up_windows_apart (n : Nat) : WindowsApart (Hub.powerUp n) := by
  intro p v w r q apart onV onW
  exact absurd ((power_up_enabled onV).1.trans (power_up_enabled onW).1.symm) apart

theorem power_up_resting_law (n : Nat) : RestingLaw (Hub.powerUp n) :=
  ⟨power_up_items_law n, fun resting => (by cases resting), fun _ e he => (by cases he)⟩

theorem power_up_entry_law (n : Nat) : EntryLaw (Hub.powerUp n) where
  indices := List.nodup_nil
  burst := fun x flying => by cases flying
  aborting := fun e he => by cases he
  replies := fun p t i owed => by simp [MessageLayer.powerUp] at owed
  once := fun p => by simp [MessageLayer.powerUp]

theorem power_up_order_law (n : Nat) : OrderLaw (Hub.powerUp n) := by
  intro ahead e behind split
  exact absurd (show ([] : List Entry) = _ from split) (by simp)

theorem power_up_wait_law (n : Nat) : WaitLaw (Hub.powerUp n) := by
  refine ⟨power_up_slots_law n, fun earlier w later split => ?_⟩
  exact absurd (show ([] : List Waiting) = _ from split) (by simp)

theorem power_up_link_law (n : Nat) : LinkLaw (Hub.powerUp n) := by
  intro p
  simp [Link.powerUp, Link.down]

theorem power_up_burst_law (n : Nat) : BurstLaw (Hub.powerUp n) :=
  ⟨fun flying => (by cases flying), fun x flying => (by cases flying)⟩

/-- Nothing is outstanding after power-up. -/
theorem power_up_outstanding (n : Nat) (p : Port) : outstanding (Hub.powerUp n) p = [] := by
  have free : LeaseSlot.allFree.filterMap (grantingTag p) = [] := by
    rw [all_free_eq]
    exact List.filterMap_eq_nil_iff.mpr (fun x hx => by obtain ⟨i, _, rfl⟩ := List.mem_map.mp hx; rfl)
  unfold outstanding
  rw [power_up_layer]
  simp only [Hub.powerUp, LeaseUnit.powerUp, free]
  rfl

theorem power_up_tag_law (n : Nat) : TagLaw (Hub.powerUp n) := by
  intro p
  simp [power_up_outstanding, MessageLayer.powerUp]

/-- Settles O4: with an empty table, free slots and empty lists most laws have nothing to say; the windows and the quotas
of power-up fit the defaults. -/
theorem resetMeetsTheLaws : Obligations.ResetMeetsTheLaws := by
  have standing : ∀ l, ¬ Standing (Hub.powerUp 0) l := power_up_stands_none 0
  exact ⟨rfl, ⟨Nat.zero_le _, .inl rfl⟩, power_up_items_law 0,
    ⟨fun p held => (by cases held), fun p _ => by simp [State.reset, Link.powerUp, Link.down]⟩,
    ⟨fun p => (by simp [State.reset, Link.powerUp, Link.down, MessageLayer.powerUp]), Nat.zero_le _⟩,
    power_up_quota_law 0, ⟨List.nodup_nil, Nat.zero_le _⟩, power_up_windows_inside 0, power_up_windows_apart 0,
    fun flying => (by cases flying), power_up_resting_law 0, fun k _ stands => absurd stands (standing k),
    power_up_entry_law 0, power_up_order_law 0,
    ⟨power_up_slots_law 0, fun l stands => absurd stands (standing l)⟩,
    ⟨power_up_slots_law 0, fun e he => by cases he⟩, power_up_wait_law 0, power_up_link_law 0,
    ⟨power_up_items_law 0, fun present => absurd rfl present⟩, power_up_burst_law 0,
    ⟨power_up_slots_law 0, fun l stands => absurd stands (standing l)⟩, power_up_tag_law 0⟩

/-! ### The reset line -/

/-- While the reset line is low a column command changes nothing (R182). -/
theorem column_in_reset {s : State} (low : s.hub.resetLow = true) (i : Index) (kind : Access) :
    s.column i kind = .next s := if_pos low

/-- While the reset line is low, only its release is taken (R182). -/
theorem exec_in_reset {s : State} (low : s.hub.resetLow = true) {c : Instr} (other : c ≠ .resetLineReleased) :
    exec c s = .next s := by
  cases c with
  | resetLineReleased => exact absurd rfl other
  | resetLineAsserted => rw [exec_reset_line_asserted, if_pos low]
  | colRead i => exact column_in_reset low i .read
  | colWrite i => exact column_in_reset low i .write
  | _ => simp [perform_in_reset, low]

/-- Settles O5: the fall leaves the hub of `Hub.inReset`, the release that of `Hub.powerUp`. -/
theorem resetLineCutsEverythingOff : Obligations.ResetLineCutsEverythingOff := by
  intro s
  refine ⟨fun running => ?_, fun low => ?_, fun low c other => exec_in_reset low other⟩
  · refine ⟨Hub.inReset (s.hub.dram.epoch + 1), ?_, rfl, rfl, rfl, rfl, rfl, rfl, rfl, rfl, rfl, fun p => ?_,
      fun p => quad_get_all _ _, all_free_eq, rfl, rfl, rfl, fun p => ?_, rfl, rfl, rfl, rfl, rfl, rfl, rfl, rfl, rfl, rfl⟩
    · rw [exec_reset_line_asserted, if_neg (by simp [show s.hub.resetLow = false from running])]
    · have down : (Hub.inReset (s.hub.dram.epoch + 1)).link p = Link.down := quad_get_all _ _
      simp [down, Link.down]
    · exact quad_get_all _ _
  · rw [exec_reset_line_released, if_pos low]
    rfl

end Sys2Proof.Safety
end

section
/-! SUPPORT. Proofs of the statements on the arbiter's turn, REST and WAKE, CONFIG_SET, WINDOW_SET and HUB_RESET. Each
request is decided by the table of its rule, of which the taking has moved nothing. -/

namespace Sys2Proof.Safety

open Sys2Proof.Machine

/-! ### The arbiter's turn (R156, R159) -/

/-- No head is taken while an earlier claimant of the arbiter stands, no place is free or nothing waits. -/
theorem take_head_blocked {h : Hub} {p : Port}
    (blocked : 16 ≤ (h.link p).outbound.length ∨ (h.layer p).replies ≠ [] ∨ (h.layer p).notices ≠ NoticeSet.empty ∨
      (h.link p).inbound = []) : h.takeHead p = none := by
  cases taken : h.takeHead p with
  | none => rfl
  | some x =>
    obtain ⟨rest, turn, head, _⟩ := take_head_cases (m := x.1) (g := x.2) taken
    simp only [Hub.mayTake, Bool.and_eq_true, decide_eq_true_eq, List.isEmpty_iff, Option.isNone_iff_eq_none,
      first_none_iff] at turn
    obtain ⟨⟨place, replies⟩, notices⟩ := turn
    rcases blocked with full | pending | present | nothing
    · omega
    · exact absurd replies pending
    · exact absurd notices present
    · rw [nothing] at head; cases head

/-- Settles O11: without a head no request and no malformed message is taken, so each of the commands is skipped. -/
theorem noMessageIsTakenBeforeItsTurn : Obligations.NoMessageIsTakenBeforeItsTurn := by
  intro s p c member blocked
  have no_head : s.hub.takeHead p = none := take_head_blocked blocked
  have no_request : s.hub.takeRequest p = none := by rw [Hub.takeRequest, no_head]
  simp only [List.mem_cons, List.not_mem_nil, or_false] at member
  rcases member with rfl | rfl | rfl | rfl | rfl | rfl | rfl | rfl | rfl | rfl | rfl | rfl | rfl | rfl | rfl | rfl
  · exact perform_skips s (fun h => h.takeRead p) (by simp only [Hub.takeRead, no_request])
  · exact perform_skips s (fun h => h.takeWrite p) (by simp only [Hub.takeWrite, no_request])
  · exact perform_skips s (fun h => h.takeFence p) (by simp only [Hub.takeFence, no_request])
  · exact perform_skips s (fun h => h.takeLeaseTake p) (by simp only [Hub.takeLeaseTake, no_request])
  · exact perform_skips s (fun h => h.takeLeaseDrop p) (by simp only [Hub.takeLeaseDrop, no_request])
  · exact perform_skips s (fun h => h.takeLeaseRenew p) (by simp only [Hub.takeLeaseRenew, no_request])
  · exact perform_skips s (fun h => h.takeRest p) (by simp only [Hub.takeRest, no_request])
  · exact perform_skips s (fun h => h.takeWake p) (by simp only [Hub.takeWake, no_request])
  · exact perform_skips s (fun h => h.takeQuery p) (by simp only [Hub.takeQuery, no_request])
  · exact perform_skips s (fun h => h.takeConfigSet p) (by simp only [Hub.takeConfigSet, no_request])
  · exact perform_skips s (fun h => h.takeConfigCommit p) (by simp only [Hub.takeConfigCommit, no_request])
  · exact perform_skips s (fun h => h.takeWindowSet p) (by simp only [Hub.takeWindowSet, no_request])
  · exact perform_skips s (fun h => h.takeHandover p) (by simp only [Hub.takeHandover, no_request])
  · exact perform_skips s (fun h => h.takeClaim p) (by simp only [Hub.takeClaim, no_request])
  · exact perform_skips s (fun h => h.takeHubReset p) (by simp only [Hub.takeHubReset, no_request])
  · exact perform_skips s (fun h => h.takeMalformed p) (by simp only [Hub.takeMalformed, no_head])

/-! ### REST and WAKE (R103, R104) -/

/-- The two checks of REST, WAKE and QUERY: MALFORMED and TAG_IN_USE. -/
def tagTable (h : Hub) (p : Port) (tag : Byte) (malformed : Bool) : List (Bool × Status × Nat) :=
  [(malformed, .malformed, 0), ((h.layer p).tags.contains tag, .tagInUse, 0)]

theorem tag_table_after_taking (h : Hub) (p : Port) (rest : List (List Byte)) (tag : Byte) (malformed : Bool) :
    tagTable (h.afterTaking p rest) p tag malformed = tagTable h p tag malformed := by
  simp only [tagTable, after_taking_layer, if_true]

/-- A request with these two checks alone is decided by their table. -/
theorem decided_by_tag_table (h : Hub) (p : Port) (tag : Byte) (malformed : Bool) (taken : Hub) :
    (if malformed = true then h.refuse p tag .malformed 0
      else if h.tagInUse p tag = true then h.refuse p tag .tagInUse 0 else taken) =
      decidedBy (tagTable h p tag malformed) h p tag taken := by
  rw [decidedBy, tagTable, first_that_holds_cons, first_that_holds_cons, first_that_holds_nil, Hub.tagInUse]
  by_cases bad : malformed = true
  · rw [if_pos bad, if_pos bad]; rfl
  · rw [if_neg bad, if_neg bad]
    by_cases used : (h.layer p).tags.contains tag = true
    · rw [if_pos used, if_pos used]; rfl
    · rw [if_neg used, if_neg used]; rfl

theorem vote_rest_eq (h : Hub) (p : Port) (tag : Byte) (reserved : Nat) :
    h.voteRest p tag reserved = decidedBy (tagTable h p tag (reserved != 0)) h p tag
      ({ h with rest := { h.rest with votes := h.rest.votes.set p true } }.accept p tag) := by
  rw [← decided_by_tag_table]
  simp only [Hub.voteRest, bne_iff_ne]

theorem vote_wake_eq (h : Hub) (p : Port) (tag : Byte) (reserved : Nat) :
    h.voteWake p tag reserved = decidedBy (tagTable h p tag (reserved != 0)) h p tag
      (if answersWake h.channel = true then (h.wantMemory p).accept p tag
        else let g := (h.wantMemory p).addTag p tag
          { g with rest := { g.rest with wakes := g.rest.wakes ++ [(p, tag)] } }) := by
  rw [← decided_by_tag_table]
  simp only [Hub.voteWake, bne_iff_ne]

/-- Asking for the memory in a channel that is not RESTING clears the vote alone. -/
theorem want_memory_awake {h : Hub} (p : Port) (awake : h.channel ≠ .resting ∨ h.config.change ≠ none) :
    h.wantMemory p = { h with rest := { h.rest with votes := h.rest.votes.set p false } } :=
  if_neg (fun resting => awake.elim (fun other => other resting.1) (fun pending => pending resting.2))

/-- Asking for the memory in a RESTING channel begins LEAVING, unless a change is pending (R109, R112). -/
theorem want_memory_resting {h : Hub} (p : Port) (resting : h.channel = .resting) (quiet : h.config.change = none) :
    h.wantMemory p = { h with
      channel := .leaving
      rest := { h.rest with votes := h.rest.votes.set p false, leaving := some .exitWait }
      upkeep := { h.upkeep with timer := some (h.now + h.config.committed.upkeepInterval) } } :=
  if_pos ⟨resting, quiet⟩

theorem exec_rest_taken {s : State} {p : Port} {m : List Byte} {rest : List (List Byte)} {tag : Byte} {reserved : Nat}
    (taking : Taking s p m rest) (parsed : parseRequest m = some (.rest tag reserved)) :
    exec (.rest p) s = after s ((s.hub.afterTaking p rest).voteRest p tag reserved) :=
  (exec_rest p s).trans (perform_after taking.running (by simp only [Hub.takeRest, taking_request taking parsed]))

theorem exec_wake_taken {s : State} {p : Port} {m : List Byte} {rest : List (List Byte)} {tag : Byte} {reserved : Nat}
    (taking : Taking s p m rest) (parsed : parseRequest m = some (.wake tag reserved)) :
    exec (.wake p) s = after s ((s.hub.afterTaking p rest).voteWake p tag reserved) :=
  (exec_wake p s).trans (perform_after taking.running (by simp only [Hub.takeWake, taking_request taking parsed]))

/-- Settles O10: REST and WAKE follow their two checks; the channel's state decides whether a WAKE is answered, and only
a RESTING channel begins to leave. -/
theorem restAndWakeMoveTheVote : Obligations.RestAndWakeMoveTheVote := by
  refine ⟨fun s p m rest tag reserved taking => ⟨fun parsed => ?_, fun parsed => ?_⟩, fun h p => ⟨?_, ?_⟩⟩
  · have outcome := exec_rest_taken taking parsed
    rw [vote_rest_eq, tag_table_after_taking] at outcome
    exact exec_decided outcome
  · have outcome := exec_wake_taken taking parsed
    rw [vote_wake_eq, tag_table_after_taking] at outcome
    obtain ⟨refused, taken⟩ := exec_decided outcome
    refine ⟨refused, fun passes => ⟨fun awake => ?_, fun asleep => ?_⟩⟩
    · have now : answersWake (s.hub.afterTaking p rest).channel = true := by
        rw [Hub.afterTaking_channel]
        rcases awake with e | e | e <;> rw [e] <;> rfl
      have not_resting : (s.hub.afterTaking p rest).channel ≠ .resting := by
        rw [Hub.afterTaking_channel]
        rcases awake with e | e | e <;> rw [e] <;> exact fun f => nomatch f
      rw [taken passes, if_pos now, want_memory_awake p (.inl not_resting)]
    · have later : ¬ answersWake (s.hub.afterTaking p rest).channel = true := by
        rw [Hub.afterTaking_channel]
        rcases asleep with e | e | e <;> rw [e] <;> exact Bool.false_ne_true
      rw [taken passes, if_neg later]
  · exact want_memory_resting p
  · exact want_memory_awake p

/-! ### CONFIG_SET (R121) -/

/-- BUSY while a change is pending (R121, R140). -/
def changeRow (h : Hub) : Bool × Status × Nat := (h.config.change.isSome, .busy, 1)

theorem change_check_eq (h : Hub) (p : Port) (tag : Byte) (malformed : Bool) :
    h.changeCheck p tag malformed = firstThatHolds (roleTable h p tag malformed ++ [changeRow h]) := by
  rw [Hub.changeCheck, role_check_eq, first_that_holds_append]
  cases firstThatHolds (roleTable h p tag malformed) with
  | some refusal => rfl
  | none => simp only [changeRow, first_that_holds_cons, first_that_holds_nil, Option.none_or]

/-- The table of R121. -/
def stageTable (h : Hub) (p : Port) (tag : Byte) (reserved : Nat) (pairs : List SetPair) :
    List (Bool × Status × Nat) :=
  let bad (x : SetPair) : Bool := !paramInRange x.id.toNat x.value
  roleTable h p tag (reserved != 0 || pairs.any (fun x => x.reserved != 0)) ++
    [changeRow h, (pairs.any bad, .badParam, (pairs.findIdx? bad).getD 0)]

theorem stage_table_after_taking (h : Hub) (p : Port) (rest : List (List Byte)) (tag : Byte) (reserved : Nat)
    (pairs : List SetPair) : stageTable (h.afterTaking p rest) p tag reserved pairs = stageTable h p tag reserved pairs := by
  simp only [stageTable, role_table_after_taking]
  rfl

theorem stage_eq (h : Hub) (p : Port) (tag : Byte) (reserved : Nat) (pairs : List SetPair) :
    h.stage p tag reserved pairs = decidedBy (stageTable h p tag reserved pairs) h p tag
      ({ h with config := { h.config with
          staged := pairs.foldl (fun (c : Params) (x : SetPair) => c.withValue x.id.toNat x.value) h.config.staged } }.accept p tag) := by
  rw [decidedBy, stageTable, List.append_cons, first_that_holds_append, ← change_check_eq, Hub.stage]
  cases h.changeCheck p tag (reserved != 0 || pairs.any (fun x => x.reserved != 0)) with
  | some refusal => rfl
  | none =>
    simp only [Option.none_or, first_that_holds_cons, first_that_holds_nil, ← List.findIdx?_isSome]
    cases pairs.findIdx? (fun x => !paramInRange x.id.toNat x.value) <;> rfl

theorem exec_config_set_taken {s : State} {p : Port} {m : List Byte} {rest : List (List Byte)} {tag : Byte}
    {reserved : Nat} {pairs : List SetPair} (taking : Taking s p m rest)
    (parsed : parseRequest m = some (.configSet tag reserved pairs)) :
    exec (.configSet p) s = after s ((s.hub.afterTaking p rest).stage p tag reserved pairs) :=
  (exec_config_set p s).trans (perform_after taking.running (by simp only [Hub.takeConfigSet, taking_request taking parsed]))

/-- Settles O14: `Hub.stage` follows the table of R121. -/
theorem configSetStagesEveryPairOrNone : Obligations.ConfigSetStagesEveryPairOrNone := by
  intro s p m rest tag reserved pairs taking parsed
  have outcome := exec_config_set_taken taking parsed
  rw [stage_eq, stage_table_after_taking] at outcome
  exact exec_decided outcome

/-! ### WINDOW_SET (R140) -/

/-- The window records of a port, by their numbers. -/
theorem quad_toList_eq_map {α : Type} (q : Quad α) : q.toList = [0, 1, 2, 3].map (fun j => q.get (Fin.ofNat 4 j)) := rfl

/-- The record of window `j` is another enabled one whose port range overlaps the range (R140, check 6). -/
def otherOverlaps (ws : Quad (Option Window)) (window base size : Nat) (j : Nat) : Bool :=
  j != window && (match ws.get (Fin.ofNat 4 j) with
    | some r => decide (base < r.base + r.size) && decide (r.base < base + size)
    | none => false)

/-- Looking past the named window is looking at the others. -/
theorem overlap_search_eq (ws : Quad (Option Window)) {window : Nat} (legal : window ≤ 3) (base size : Nat) :
    ((ws.set (Fin.ofNat 4 window) none).toList).findIdx? (overlapsWindow base size) =
      [0, 1, 2, 3].findIdx? (otherOverlaps ws window base size) := by
  rw [quad_toList_eq_map, List.findIdx?_map]
  have pointwise : ∀ j ≤ 3, overlapsWindow base size ((ws.set (Fin.ofNat 4 window) none).get (Fin.ofNat 4 j)) =
      otherOverlaps ws window base size j := by
    intro j hj
    rw [quad_get_set, otherOverlaps]
    by_cases same : j = window
    · simp [same, overlapsWindow]
    · have apart : Fin.ofNat 4 j ≠ Fin.ofNat 4 window := by
        simp only [ne_eq, Fin.ext_iff, Fin.val_ofNat]; omega
      rw [if_neg apart]
      cases ws.get (Fin.ofNat 4 j) <;> simp [overlapsWindow, rangesOverlap, same]
  simp only [List.findIdx?_cons, List.findIdx?_nil, Function.comp_apply, pointwise 0 (by omega), pointwise 1 (by omega),
    pointwise 2 (by omega), pointwise 3 (by omega)]

/-- Checks 5 and 6 of R140. -/
def placementTable (h : Hub) (port window enable base size target : Nat) : List (Bool × Status × Nat) :=
  let other := otherOverlaps (h.windows.get (Fin.ofNat 4 port)) window base size
  [(enable == 1 && decide (h.config.committed.memorySize < target + size), .badParam, 0x10),
    (enable == 1 && [0, 1, 2, 3].any other, .badParam, 0x20 + ([0, 1, 2, 3].findIdx? other).getD 0)]

/-- The MALFORMED of R140, as its table states it. -/
theorem window_set_malformed_eq (port window enable : Nat) (rights : Byte) (reserved base size target : Nat) :
    windowSetMalformed port window enable rights reserved base size target =
      decide (reserved ≠ 0 ∨ 3 < port ∨ 3 < window ∨ 1 < enable ∨ 3 < rights.toNat ∨
        (enable = 1 ∧ (base % 256 ≠ 0 ∨ size % 256 ≠ 0 ∨ target % 256 ≠ 0 ∨ size = 0 ∨ 0x80000000 < size ∨
          0x100000000 < base + size ∨ rights = 0))) := by
  rw [Bool.eq_iff_iff]
  simp only [windowSetMalformed, Bool.or_eq_true, Bool.and_eq_true, bne_iff_ne, beq_iff_eq, decide_eq_true_eq,
    or_assoc]
  rfl

theorem window_table_eq (h : Hub) (p : Port) (tag : Byte) (port window enable : Nat) (rights : Byte)
    (reserved base size target : Nat) :
    windowTable h p tag port window enable rights reserved base size target =
      (roleTable h p tag (windowSetMalformed port window enable rights reserved base size target) ++ [changeRow h]) ++
        placementTable h port window enable base size target := by
  rw [window_set_malformed_eq]
  rfl

theorem window_table_after_taking (h : Hub) (p : Port) (rest : List (List Byte)) (tag : Byte)
    (port window enable : Nat) (rights : Byte) (reserved base size target : Nat) :
    windowTable (h.afterTaking p rest) p tag port window enable rights reserved base size target =
      windowTable h p tag port window enable rights reserved base size target := by
  rw [window_table_eq, window_table_eq, role_table_after_taking]
  rfl

/-- The record that a WINDOW_SET puts in place (R140). -/
def windowOf (enable : Nat) (rights : Byte) (base size target : Nat) : Option Window :=
  if enable = 1 then some ⟨base, size, target, rights.getLsbD 0, rights.getLsbD 1⟩ else none

/-- The hub with the record of window `k` of port `n` replaced. -/
def withWindow (h : Hub) (n k : Port) (record : Option Window) : Hub :=
  { h with windows := h.windows.set n ((h.windows.get n).set k record) }

theorem set_window_eq (h : Hub) (p : Port) (tag : Byte) (port window enable : Nat) (rights : Byte)
    (reserved base size target : Nat) :
    h.setWindow p tag port window enable rights reserved base size target =
      decidedBy (windowTable h p tag port window enable rights reserved base size target) h p tag
        ((withWindow h (Fin.ofNat 4 port) (Fin.ofNat 4 window) (windowOf enable rights base size target)).accept p tag) := by
  rw [decidedBy, window_table_eq, first_that_holds_append, Hub.setWindow, change_check_eq]
  cases checked : firstThatHolds
    (roleTable h p tag (windowSetMalformed port window enable rights reserved base size target) ++ [changeRow h]) with
  | some refusal => rfl
  | none =>
    rw [first_that_holds_append, Option.or_eq_none_iff] at checked
    have legal := not_malformed_of_role_passes checked.1
    rw [window_set_malformed_eq, decide_eq_false_iff_not] at legal
    have window_legal : window ≤ 3 := by omega
    rcases (by omega : enable = 0 ∨ enable = 1) with rfl | rfl
    · rfl
    · simp only [overlap_search_eq _ window_legal, placementTable, Option.none_or, first_that_holds_cons,
        first_that_holds_nil, ← List.findIdx?_isSome, beq_self_eq_true, Bool.true_and, decide_eq_true_eq, one_ne_zero,
        if_false, windowOf, if_true]
      by_cases high : h.config.committed.memorySize < target + size
      · simp only [high, if_true]
        rfl
      · simp only [high, if_false]
        cases [0, 1, 2, 3].findIdx? (otherOverlaps (h.windows.get (Fin.ofNat 4 port)) window base size) <;> rfl

theorem exec_window_set_taken {s : State} {p : Port} {m : List Byte} {rest : List (List Byte)} {tag : Byte}
    {port window enable : Nat} {rights : Byte} {reserved base size target : Nat} (taking : Taking s p m rest)
    (parsed : parseRequest m = some (.windowSet tag port window enable rights reserved base size target)) :
    exec (.windowSet p) s =
      after s ((s.hub.afterTaking p rest).setWindow p tag port window enable rights reserved base size target) :=
  (exec_window_set p s).trans (perform_after taking.running (by simp only [Hub.takeWindowSet, taking_request taking parsed]))

/-- Settles O17: `Hub.setWindow` follows the table of R140. -/
theorem windowSetIsRefusedInTheOrderOfR140OrSets : Obligations.WindowSetIsRefusedInTheOrderOfR140OrSets := by
  intro s p m rest tag port window enable rights reserved base size target taking parsed
  have outcome := exec_window_set_taken taking parsed
  rw [set_window_eq, window_table_after_taking] at outcome
  exact exec_decided outcome

/-! ### HUB_RESET (R131) -/

/-- The hub that a HUB_RESET leaves when it is taken (R131). -/
def resetTaken (h : Hub) (p : Port) (tag : Byte) : Hub :=
  { h.discardWork with config := { h.discardWork.config with change := some ⟨.hubReset, p, tag, false⟩ } }.addTag p tag

theorem start_reset_eq (h : Hub) (p : Port) (tag : Byte) (reserved : Nat) :
    h.startReset p tag reserved =
      decidedBy (roleTable h p tag (reserved != 0) ++ [busyRow h]) h p tag (resetTaken h p tag) := by
  rw [decidedBy, Hub.startReset, commit_check_eq]
  cases firstThatHolds (roleTable h p tag (reserved != 0) ++ [busyRow h]) <;> rfl

theorem exec_hub_reset_taken {s : State} {p : Port} {m : List Byte} {rest : List (List Byte)} {tag : Byte}
    {reserved : Nat} (taking : Taking s p m rest) (parsed : parseRequest m = some (.hubReset tag reserved)) :
    exec (.hubReset p) s = after s ((s.hub.afterTaking p rest).startReset p tag reserved) :=
  (exec_hub_reset p s).trans (perform_after taking.running (by simp only [Hub.takeHubReset, taking_request taking parsed]))

/-- Settles O19: `Hub.startReset` follows the checks of R116 and R131. -/
theorem hubResetIsRefusedOrTaken : Obligations.HubResetIsRefusedOrTaken := by
  intro s p m rest tag reserved taking parsed
  have outcome := exec_hub_reset_taken taking parsed
  rw [start_reset_eq, role_table_after_taking] at outcome
  exact exec_decided outcome

end Sys2Proof.Safety
end

section
/-! SUPPORT. Proofs of the statements on the replies of the other kinds and on notices (chapter 9). -/

namespace Sys2Proof.Safety

open Sys2Proof.Machine

/-! ### Replies (R158, R159) -/

/-- One tag leaves a tag set. -/
theorem drop_one_tag (m : MessageLayer) (tag : Byte) :
    m.dropTags [tag] = { m with tags := m.tags.filter (fun t => t != tag) } := by
  have same : (fun t => !([tag].contains t)) = fun t => t != tag := by
    funext t
    rw [List.contains_cons, List.contains_nil, Bool.or_false, bne]
  rw [MessageLayer.dropTags, same]

/-- The hub once the head of a pending reply list has gone out as a reply, before its owner takes its effects (R159). -/
def placedOut (h : Hub) (p : Port) (tag : Byte) (rest : List PendingReply) (reply : Reply) : Hub :=
  (h.place p (.reply reply)).onMessages p (fun m =>
    { m with
      tags := m.tags.filter (fun t => t != tag)
      replies := rest })

/-- What the arbiter does with the head of a pending reply list (R159). -/
theorem place_reply_eq {h : Hub} {p : Port} {r : PendingReply} {rest : List PendingReply} {reply : Reply}
    (head : (h.layer p).replies = r :: rest) (room : (h.link p).outbound.length < 16)
    (spells : h.replyOf r = some reply) : h.placeReply p = some ((placedOut h p r.tag rest reply).placed p r) := by
  simp only [Hub.placeReply, head, room, if_true, spells, Option.map_some, drop_one_tag, placedOut]

theorem exec_place_reply_head {s : State} {p : Port} {r : PendingReply} {rest : List PendingReply} {reply : Reply}
    (running : Running s) (head : (s.hub.layer p).replies = r :: rest) (room : (s.hub.link p).outbound.length < 16)
    (spells : s.hub.replyOf r = some reply) :
    exec (.placeReply p) s = after s ((placedOut s.hub p r.tag rest reply).placed p r) :=
  (exec_place_reply p s).trans (perform_after running (place_reply_eq head room spells))

/-- Settles O24: the reply of each kind, and the placement effects of its owner, are those of `Hub.replyOf` and
`Hub.placed`. -/
theorem placedRepliesOfTheOtherKinds : Obligations.PlacedRepliesOfTheOtherKinds := by
  intro s p r rest running head room
  cases r with
  | entry tag i => trivial
  | fence tag => exact exec_place_reply_head running head room rfl
  | aborted tag detail => exact exec_place_reply_head running head room rfl
  | leaseGrant tag handle duration => exact exec_place_reply_head running head room rfl
  | leaseEnd tag status detail => exact exec_place_reply_head running head room rfl
  | wake tag => exact exec_place_reply_head running head room rfl
  | commit tag detail => exact exec_place_reply_head running head room rfl
  | hubReset tag => exact exec_place_reply_head running head room rfl

/-! ### Notices (R161) -/

@[simp] theorem notice_get_put_same (n : NoticeSet) (k : NoticeKind) (r : Option NoticeRecord) : (n.put k r).get k = r := by
  cases k <;> rfl

theorem notice_get_put_other (n : NoticeSet) {j k : NoticeKind} (r : Option NoticeRecord) (other : j ≠ k) :
    (n.put k r).get j = n.get j := by
  cases j <;> cases k <;> simp_all [NoticeSet.put, NoticeSet.get]

/-- The first record present is that of the kind of the lowest code (R159). -/
theorem notice_first_eq {n : NoticeSet} {k : NoticeKind} {r : NoticeRecord} (present : n.get k = some r)
    (lowest : ∀ j : NoticeKind, j.code < k.code → n.get j = none) : n.first = some k := by
  cases k with
  | channelState => simp [NoticeSet.first, present]
  | controlChanged => simp [NoticeSet.first, present, lowest .channelState (by decide)]
  | leaseLapsed =>
    simp [NoticeSet.first, present, lowest .channelState (by decide), lowest .controlChanged (by decide)]
  | upkeepOverrun =>
    simp [NoticeSet.first, present, lowest .channelState (by decide), lowest .controlChanged (by decide),
      lowest .leaseLapsed (by decide)]

/-- What the arbiter does with the first notice record present (R159). -/
theorem place_notice_eq {h : Hub} {p : Port} {k : NoticeKind} {r : NoticeRecord} (none_pending : (h.layer p).replies = [])
    (room : (h.link p).outbound.length < 16) (first : (h.layer p).notices.first = some k)
    (present : (h.layer p).notices.get k = some r) :
    h.placeNotice p =
      some ((h.place p (.notice k r)).onMessages p (fun m => { m with notices := m.notices.put k none })) := by
  simp only [Hub.placeNotice, room, none_pending, and_self, if_true, first, present]

theorem give_notices (m : MessageLayer) (k : NoticeKind) (detail : Nat) (handle : Option Handle) :
    (m.give k detail handle).notices = m.notices.put k (some (mergeNotice (m.notices.get k) detail handle)) := rfl

/-- Settles O25: the first record present is the lowest, and giving a record puts the merged one in the place of its
kind. -/
theorem placedNoticeIsTheFirstPresent : Obligations.PlacedNoticeIsTheFirstPresent := by
  refine ⟨fun s p k r running none_pending room present lowest => ?_, fun m k detail handle => ⟨?_, ?_, rfl⟩,
    fun h p k detail handle => ⟨fun q => ?_, rfl, fun q => Hub.notifyUp_layer h k detail q, rfl⟩⟩
  · rw [exec_place_notice,
      perform_after running (place_notice_eq none_pending room (notice_first_eq present lowest) present)]
    cases k <;> rfl
  · rw [give_notices, notice_get_put_same]
    cases m.notices.get k <;> rfl
  · intro j other
    rw [give_notices, notice_get_put_other _ _ other]
  · exact Hub.onMessages_layer h p q _

end Sys2Proof.Safety
end

section
/-! SUPPORT. Proofs of the statements on the frames a port receives, MESSAGE, NAK, ALIGN, READY and corrupt ones
(chapter 10). A frame that is heard moves the receiving side and then acts on the port's link alone. -/

namespace Sys2Proof.Safety

open Sys2Proof.Machine

/-! ### What a port hears -/

/-- The link of a port that has heard a frame event. -/
def heardAt (s : State) (p : Port) (r : Receiver) : Link := { s.hub.link p with receiver := r }

/-- The hub whose port has heard a frame event. -/
def heardHub (s : State) (p : Port) (r : Receiver) : Hub := s.hub.onLink p (fun _ => heardAt s p r)

@[simp] theorem heard_hub_link (s : State) (p : Port) (r : Receiver) : (heardHub s p r).link p = heardAt s p r := by
  simp [heardHub]

/-- An update of the port's link after the hearing is one update. -/
theorem heard_hub_on_link (s : State) (p : Port) (r : Receiver) (f : Link → Link) :
    (heardHub s p r).onLink p f = s.hub.onLink p (fun _ => f (heardAt s p r)) := on_link_on_link s.hub p _ f

theorem hear_good_heard {s : State} {p : Port} {line : List LineSymbol} {frame : List Byte} {r : Receiver} {b : FrameBody}
    (hears : Hears s p line (.delimited frame) r) (parsed : parseFrame frame = some b) :
    s.hub.hearGood p line = some (b, heardHub s p r) := hears_good hears parsed

/-! ### MESSAGE frames (R170, R171) -/

theorem owe_ack_eq (l : Link) (now : Nat) : l.oweAck now = { l with ackOwed := some (l.ackOwed.getD (now + 1600)) } := by
  cases owed : l.ackOwed <;> simp [Link.oweAck, owed, ackDelay, periodsPerMicrosecond]

/-- A good MESSAGE frame by the distance of its sequence from the expected one (R170). -/
theorem receive_message_eq (l : Link) (now : Nat) (seq : Byte) (payload : List Byte) :
    l.receiveMessage now seq payload =
      if (seq - l.expected).toNat = 0 then
        if l.inbound.length < 4 then
          { l.heard with inbound := l.inbound ++ [payload], expected := l.expected + 1, nakMark := false }.oweAck now
        else l.heard.nak .full
      else if (seq - l.expected).toNat ≤ 128 then (if l.nakMark = true then l.heard else l.heard.nak .order)
      else l.heard.oweAck now := rfl

theorem receive_in_sequence {l : Link} {seq : Byte} (inSequence : (seq - l.expected).toNat = 0)
    (room : l.inbound.length < 4) (now : Nat) (payload : List Byte) :
    l.receiveMessage now seq payload =
      { l with
        corrupt := 0
        inbound := l.inbound ++ [payload]
        expected := l.expected + 1
        nakMark := false
        ackOwed := some (l.ackOwed.getD (now + 1600)) } := by
  rw [receive_message_eq, if_pos inSequence, if_pos room, owe_ack_eq]
  rfl

theorem receive_in_sequence_full {l : Link} {seq : Byte} (inSequence : (seq - l.expected).toNat = 0)
    (full : 4 ≤ l.inbound.length) (now : Nat) (payload : List Byte) :
    l.receiveMessage now seq payload = l.heard.nak .full := by
  rw [receive_message_eq, if_pos inSequence, if_neg (Nat.not_lt.mpr full)]

theorem receive_ahead {l : Link} {seq : Byte} (low : 1 ≤ (seq - l.expected).toNat)
    (high : (seq - l.expected).toNat ≤ 128) (now : Nat) (payload : List Byte) :
    l.receiveMessage now seq payload = if l.nakMark = true then l.heard else l.heard.nak .order := by
  have ahead : (seq - l.expected).toNat ≠ 0 := by omega
  rw [receive_message_eq, if_neg ahead, if_pos high]

theorem receive_repeat {l : Link} {seq : Byte} (behind : 129 ≤ (seq - l.expected).toNat) (now : Nat)
    (payload : List Byte) :
    l.receiveMessage now seq payload = { l with corrupt := 0, ackOwed := some (l.ackOwed.getD (now + 1600)) } := by
  have ahead : (seq - l.expected).toNat ≠ 0 := by omega
  have far : ¬ (seq - l.expected).toNat ≤ 128 := by omega
  rw [receive_message_eq, if_neg ahead, if_neg far, owe_ack_eq]
  rfl

theorem exec_message_up {s : State} {p : Port} {line : List LineSymbol} {frame : List Byte} {r : Receiver} {seq : Byte}
    {payload : List Byte} (hears : Hears s p line (.delimited frame) r)
    (parsed : parseFrame frame = some (.message seq payload)) (up : LinkUp s p) :
    exec (.messageFrameReceived p line) s =
      after s (s.hub.onLink p (fun _ => (heardAt s p r).receiveMessage s.hub.now seq payload)) := by
  rw [exec_message_frame_received]
  refine perform_after up.1 ?_
  simp only [Hub.messageFrame, hear_good_heard hears parsed, heard_hub_link, heard_hub_on_link]
  exact if_pos up.2

theorem message_gives {s : State} {p : Port} {line : List LineSymbol} {frame : List Byte} {r : Receiver} {seq : Byte}
    {payload : List Byte} {m : Link} (hears : Hears s p line (.delimited frame) r)
    (parsed : parseFrame frame = some (.message seq payload)) (up : LinkUp s p)
    (gives : (heardAt s p r).receiveMessage s.hub.now seq payload = m) :
    exec (.messageFrameReceived p line) s = after s (s.hub.onLink p (fun _ => m)) :=
  gives ▸ exec_message_up hears parsed up

theorem exec_message_training {s : State} {p : Port} {line : List LineSymbol} {frame : List Byte} {r : Receiver}
    {seq : Byte} {payload : List Byte} (hears : Hears s p line (.delimited frame) r)
    (parsed : parseFrame frame = some (.message seq payload)) (training : LinkTraining s p) :
    exec (.messageFrameReceived p line) s = after s (heardHub s p r) := by
  rw [exec_message_frame_received]
  refine perform_after training.1 ?_
  simp only [Hub.messageFrame, hear_good_heard hears parsed, heard_hub_link]
  exact if_neg (by simp [heardAt, training.2])

/-- Settles O26: in UP the distance of the sequence from the expected one decides, and for the frame in sequence the free
places. -/
theorem messageFrameIsPlacedByItsSequence : Obligations.MessageFrameIsPlacedByItsSequence := by
  intro s p line frame r seq payload hears parsed
  refine ⟨fun up => ⟨fun same room => ?_, fun same full => ?_, fun low high => ?_, fun behind => ?_⟩, fun training => ?_⟩
  · exact message_gives hears parsed up (receive_in_sequence same room _ _)
  · exact message_gives hears parsed up (receive_in_sequence_full same full _ _)
  · exact message_gives hears parsed up (receive_ahead low high _ _)
  · exact message_gives hears parsed up (receive_repeat behind _ _)
  · exact exec_message_training hears parsed training

/-! ### NAK frames (R174) -/

theorem frames_from_eq (n : Byte) (fs : List SentFrame) : framesFrom n fs = fs.dropWhile (fun f => f.seq != n) := by
  induction fs with
  | nil => rfl
  | cons f fs ih =>
    by_cases named : f.seq = n
    · simp [framesFrom, named]
    · simp [framesFrom, named, ih]

/-- The frames that a NAK naming `e` leaves on the replay list (R174). -/
def framesKept (l : Link) (e : Byte) : List SentFrame :=
  if l.holds e then l.replay.dropWhile (fun f => f.seq != e) else []

/-- The replay timer after progress (R173). -/
theorem progress_eq (l : Link) (now : Nat) :
    l.progress now = { l with replays := 0, replayTimer := if l.replay = [] then none else some (now + 12800) } := by
  simp only [Link.progress, List.isEmpty_iff, replayTime, periodsPerMicrosecond]

/-- The link once the frames ahead of the named one have left (R174). -/
theorem cut_ahead_eq (l : Link) (now : Nat) (e : Byte) :
    l.cutAhead now e =
      if (framesKept l e).length < l.replay.length then
        { l with
          replay := framesKept l e
          replays := 0
          replayTimer := if framesKept l e = [] then none else some (now + 12800)
          resend := match l.resend with
            | some q => if (framesKept l e).any (fun f => f.seq == q) then some q
              else (framesKept l e).head?.map SentFrame.seq
            | none => none }
      else l := by
  unfold Link.cutAhead
  rw [frames_from_eq]
  show (if (framesKept l e).length < l.replay.length then _ else l) = _
  by_cases cut : (framesKept l e).length < l.replay.length
  · rw [if_pos cut, if_pos cut, progress_eq, mend_resend_eq]
    rfl
  · rw [if_neg cut, if_neg cut]

/-- Cutting at a frame of the list keeps that frame. -/
theorem cut_ahead_holds (l : Link) (now : Nat) (e : Byte) : (l.cutAhead now e).holds e = l.holds e := by
  have kept : ∀ fs : List SentFrame, (fs.dropWhile (fun f => f.seq != e)).any (fun f => f.seq == e) =
      fs.any (fun f => f.seq == e) := by
    intro fs
    induction fs with
    | nil => rfl
    | cons f fs ih =>
      by_cases named : f.seq = e <;> simp [named, ih]
  rw [cut_ahead_eq]
  split
  · show (framesKept l e).any (fun f => f.seq == e) = l.holds e
    cases found : l.holds e with
    | true => rw [framesKept, if_pos found, kept]; exact found
    | false => rw [framesKept, if_neg (ne_true_of_eq_false found)]; rfl
  · rfl

theorem exec_nak_up {s : State} {p : Port} {line : List LineSymbol} {frame : List Byte} {r : Receiver} {e : Byte}
    {reason : NakReason} (hears : Hears s p line (.delimited frame) r)
    (parsed : parseFrame frame = some (.nak e reason)) (up : LinkUp s p) :
    exec (.nakReceived p line) s = after s (s.hub.onLink p (fun _ => (heardAt s p r).receiveNak s.hub.now e reason)) := by
  rw [exec_nak_received]
  refine perform_after up.1 ?_
  simp only [Hub.nakFrame, hear_good_heard hears parsed, heard_hub_link, heard_hub_on_link]
  exact if_pos up.2

theorem exec_nak_training {s : State} {p : Port} {line : List LineSymbol} {frame : List Byte} {r : Receiver} {e : Byte}
    {reason : NakReason} (hears : Hears s p line (.delimited frame) r)
    (parsed : parseFrame frame = some (.nak e reason)) (training : LinkTraining s p) :
    exec (.nakReceived p line) s = after s (heardHub s p r) := by
  rw [exec_nak_received]
  refine perform_after training.1 ?_
  simp only [Hub.nakFrame, hear_good_heard hears parsed, heard_hub_link]
  exact if_neg (by simp [heardAt, training.2])

/-- The link that has heard a NAK naming `e`, once the frames ahead of the named one have left (R174). -/
def nakCut (l : Link) (now : Nat) (e : Byte) : Link :=
  if decide ((framesKept l e).length < l.replay.length) = true then
    { l with
      corrupt := 0
      replay := framesKept l e
      replays := 0
      replayTimer := if framesKept l e = [] then none else some (now + 12800)
      resend := match l.resend with
        | some q => if (framesKept l e).any (fun f => f.seq == q) then some q
          else (framesKept l e).head?.map SentFrame.seq
        | none => none }
  else { l with corrupt := 0 }

theorem heard_cut_eq (l : Link) (now : Nat) (e : Byte) : l.heard.cutAhead now e = nakCut l now e := by
  rw [cut_ahead_eq]
  by_cases cut : (framesKept l e).length < l.replay.length
  · exact (if_pos cut).trans (if_pos (decide_eq_true cut)).symm
  · exact (if_neg cut).trans (if_neg (ne_true_of_eq_false (decide_eq_false cut))).symm

/-- What a good NAK received in UP makes of the link (R174). -/
def nakLink (l : Link) (now : Nat) (e : Byte) (reason : NakReason) : Link :=
  if l.holds e = false ∧ e ≠ l.sendSeq then { l with corrupt := 0 }
  else match reason with
    | .full =>
      { nakCut l now e with
        farRoom := 0
        fullWait := true
        replays := 0
        resend := if l.holds e = true then some e else (nakCut l now e).resend }
    | _ =>
      if l.holds e = true then { nakCut l now e with resend := some e, replayTimer := some (now + 12800) }
      else nakCut l now e

theorem receive_nak_eq (l : Link) (now : Nat) (e : Byte) (reason : NakReason) :
    l.receiveNak now e reason = nakLink l now e reason := by
  have found : (nakCut l now e).holds e = l.holds e := by rw [← heard_cut_eq]; exact cut_ahead_holds l.heard now e
  have names : (l.heard.holds e || e == l.heard.sendSeq) = true ↔ ¬ (l.holds e = false ∧ e ≠ l.sendSeq) := by
    show (l.holds e || e == l.sendSeq) = true ↔ _
    cases l.holds e <;> simp
  by_cases stray : l.holds e = false ∧ e ≠ l.sendSeq
  · exact (if_neg (fun named => names.mp named stray)).trans (if_pos stray).symm
  · refine Eq.trans ?_ (if_neg stray).symm
    cases reason <;> simp only [Link.receiveNak, if_pos (names.mpr stray), heard_cut_eq, found] <;> rfl

theorem nak_gives {s : State} {p : Port} {line : List LineSymbol} {frame : List Byte} {r : Receiver} {e : Byte}
    {reason : NakReason} (hears : Hears s p line (.delimited frame) r)
    (parsed : parseFrame frame = some (.nak e reason)) (up : LinkUp s p) :
    exec (.nakReceived p line) s =
      after s (s.hub.onLink p (fun _ => nakLink (heardAt s p r) s.hub.now e reason)) :=
  receive_nak_eq (heardAt s p r) s.hub.now e reason ▸ exec_nak_up hears parsed up

/-- Settles O28: a NAK that names a frame of the list or the send sequence cuts the list there and acts by its reason. -/
theorem nakMovesTheResendPoint : Obligations.NakMovesTheResendPoint := by
  intro s p line frame r e reason hears parsed
  exact ⟨nak_gives hears parsed, exec_nak_training hears parsed⟩

end Sys2Proof.Safety
end

section
/-! SUPPORT. Proofs of the statements on training, corrupt frames, what a port in UP sends, and the link timers
(chapter 10). -/

namespace Sys2Proof.Safety

open Sys2Proof.Machine

/-! ### A link that comes UP (R167) -/

theorem quad_set_set {α : Type} (q : Quad α) (p : Port) (a b : α) : (q.set p a).set p b = q.set p b :=
  quad_upd_upd q p (fun _ => a) (fun _ => b)

/-- The link that has become UP with a far-end room (R167). -/
def upLink (l : Link) (room : Nat) : Link :=
  { l with
    state := .up
    step := none
    farReady := false
    readySent := false
    trainingTimer := none
    expected := 0
    corrupt := 0
    nakMark := false
    ackOwed := none
    sendSeq := 0
    farRoom := room
    resend := none
    fullWait := false
    replayTimer := none
    roomTimer := none
    replays := 0 }

theorem link_up_eq (h : Hub) (p : Port) : h.linkUp p = linkUpWith h p (h.link p).farRoom := rfl

/-- A link that comes UP after an update of its port's link. -/
theorem link_up_with_on_link (h : Hub) (p : Port) (f : Link → Link) (room : Nat) :
    linkUpWith (h.onLink p f) p room =
      { h with
        links := h.links.set p (upLink (f (h.link p)) room)
        rest := { h.rest with votes := h.rest.votes.set p false } } := by
  have updated : (h.onLink p f).link p = f (h.link p) := by simp
  have links : (h.links.upd p f).set p (upLink (f (h.link p)) room) = h.links.set p (upLink (f (h.link p)) room) :=
    quad_set_set h.links p _ _
  unfold linkUpWith
  rw [updated]
  show { h.onLink p f with
    links := (h.links.upd p f).set p (upLink (f (h.link p)) room)
    rest := { h.rest with votes := h.rest.votes.set p false } } = _
  rw [links]
  rfl

/-! ### ALIGN and READY frames (R167, R168) -/

section
variable {s : State} {p : Port} {line : List LineSymbol} {frame : List Byte} {r : Receiver}

theorem align_frame_up (hears : Hears s p line (.delimited frame) r) (parsed : parseFrame frame = some .align)
    (up : (s.hub.link p).state = .up) : s.hub.alignFrame p line = some ((heardHub s p r).teardown p) := by
  have state : (heardAt s p r).state = .up := up
  simp only [Hub.alignFrame, hear_good_heard hears parsed, heard_hub_link, state]

theorem align_frame_training (hears : Hears s p line (.delimited frame) r) (parsed : parseFrame frame = some .align)
    (training : (s.hub.link p).state = .training) :
    s.hub.alignFrame p line = some (s.hub.onLink p (fun _ => { heardAt s p r with step := some .ready })) := by
  have state : (heardAt s p r).state = .training := training
  simp only [Hub.alignFrame, hear_good_heard hears parsed, heard_hub_link, state, heard_hub_on_link]

/-- The link that has seen the far end's READY (R167). -/
def readySeen (l : Link) (room : Nat) : Link := { l with step := some .ready, farReady := true, farRoom := room }

theorem ready_frame_training {room : Nat} (hears : Hears s p line (.delimited frame) r)
    (parsed : parseFrame frame = some (.ready room)) (training : (s.hub.link p).state = .training) :
    s.hub.readyFrame p line = some (
      if (s.hub.link p).readySent = true then (s.hub.onLink p (fun _ => readySeen (heardAt s p r) room)).linkUp p
      else s.hub.onLink p (fun _ => readySeen (heardAt s p r) room)) := by
  have state : (heardAt s p r).state = .training := training
  simp only [Hub.readyFrame, hear_good_heard hears parsed, heard_hub_link, state]
  simp only [heard_hub_on_link, Hub.onLink_link, if_true]
  rfl

theorem ready_frame_up {room : Nat} (hears : Hears s p line (.delimited frame) r)
    (parsed : parseFrame frame = some (.ready room)) (up : (s.hub.link p).state = .up) :
    s.hub.readyFrame p line =
      some (s.hub.onLink p (fun _ => (heardAt s p r).heard.send (.ready (heardAt s p r).room))) := by
  have state : (heardAt s p r).state = .up := up
  simp only [Hub.readyFrame, hear_good_heard hears parsed, heard_hub_link, state]
  simp only [heard_hub_on_link]

end

/-! ### What training sends -/

theorem send_ready_eq {h : Hub} {p : Port} (training : (h.link p).state = .training)
    (step : (h.link p).step = some .ready) :
    h.sendReady p = some (
      if (h.link p).farReady = true then
        (h.onLink p (fun _ => { (h.link p).send (.ready (h.link p).room) with readySent := true })).linkUp p
      else h.onLink p (fun _ => { (h.link p).send (.ready (h.link p).room) with readySent := true })) := by
  have far : ((h.onLink p (fun l => { l.send (.ready l.room) with readySent := true })).link p).farReady =
      (h.link p).farReady := by simp
  unfold Hub.sendReady
  rw [if_pos ⟨training, step⟩]
  simp only [far]
  rfl

theorem training_expiry_eq {h : Hub} {p : Port} {t : Nat} (training : (h.link p).state = .training)
    (timer : (h.link p).trainingTimer = some t) :
    h.trainingExpiry p = some ((h.reach t).onLink p (fun l => l.beginTraining (max h.now t))) := by
  simp only [Hub.trainingExpiry, training, timer]
  rfl

/-- Settles O29: the state of the link decides, and in TRAINING whether the other READY has gone. -/
theorem trainingFollowsR167AndR168 : Obligations.TrainingFollowsR167AndR168 := by
  refine ⟨fun s p line frame r hears => ⟨fun parsed => ⟨fun training => ?_, fun up => ?_⟩,
    fun room parsed => ⟨fun training unsent => ?_, fun training sent => ?_, fun up => ?_⟩⟩,
    fun s p training => ⟨fun step => ?_, fun step unseen => ?_, fun step seen => ?_, fun t timer => ?_⟩⟩
  · exact (exec_align_received p line s).trans
      (perform_after training.1 (align_frame_training hears parsed training.2))
  · exact (exec_align_received p line s).trans (perform_after up.1 (align_frame_up hears parsed up.2))
  · have effect := ready_frame_training hears parsed training.2
    rw [if_neg (ne_true_of_eq_false unsent)] at effect
    exact (exec_ready_received p line s).trans (perform_after training.1 effect)
  · have effect := ready_frame_training hears parsed training.2
    rw [if_pos sent, link_up_eq, Hub.onLink_link, if_pos rfl, link_up_with_on_link] at effect
    rw [exec_ready_received, perform_after training.1 effect]
    congr 1
    exact (link_up_with_on_link s.hub p (fun _ => heardAt s p r) room).symm
  · exact (exec_ready_received p line s).trans (perform_after up.1 (ready_frame_up hears parsed up.2))
  · exact (exec_align_sent p s).trans (perform_after training.1 (if_pos ⟨training.2, step⟩))
  · have effect := send_ready_eq training.2 step
    rw [if_neg (ne_true_of_eq_false unseen)] at effect
    exact (exec_ready_sent p s).trans (perform_after training.1 effect)
  · have effect := send_ready_eq training.2 step
    rw [if_pos seen, link_up_eq, Hub.onLink_link, if_pos rfl, link_up_with_on_link] at effect
    rw [exec_ready_sent, perform_after training.1 effect]
    congr 1
    exact (link_up_with_on_link s.hub p (fun _ => (s.hub.link p).send (.ready (s.hub.link p).room)) _).symm
  · rw [exec_training_timer_expiry, perform_after training.1 (training_expiry_eq training.2 timer)]
    simp only [Link.beginTraining, training.2]
    congr 1

/-! ### Corrupt frames (R169) -/

section
variable {s : State} {p : Port} {line : List LineSymbol} {frame : LineFrame} {r : Receiver}

theorem hear_heard (hears : Hears s p line frame r) : s.hub.hear p line = some (frame, heardHub s p r) := by
  have heard : (s.hub.link p).receiver.hear line = some (frame, r) := hears
  rw [Hub.hear, heard]
  rfl

theorem corrupt_frame_eq (hears : Hears s p line frame r) (bad : lineCorrupt frame = true) :
    s.hub.corruptFrame p line = some (
      if (s.hub.link p).state = .up then
        if 8 ≤ (s.hub.link p).corrupt + 1 then (heardHub s p r).teardown p
        else s.hub.onLink p (fun _ =>
          if (s.hub.link p).nakMark then { heardAt s p r with corrupt := (s.hub.link p).corrupt + 1 }
          else { heardAt s p r with corrupt := (s.hub.link p).corrupt + 1 }.nak .corrupt)
      else heardHub s p r) := by
  simp only [Hub.corruptFrame, hear_heard hears, bad, if_true, heard_hub_link, heard_hub_on_link]
  split_ifs <;> first | rfl | contradiction

end

/-- Settles O30: the count of corrupt frames in a row and the NAK mark decide. -/
theorem corruptFramesAreCountedAndAnswered : Obligations.CorruptFramesAreCountedAndAnswered := by
  intro s p line frame r hears bad
  have effect := corrupt_frame_eq hears bad
  refine ⟨fun up eighth => ?_, fun up few marked => ?_, fun up few unmarked => ?_, fun training => ?_⟩
  · have many : 8 ≤ (s.hub.link p).corrupt + 1 := Nat.succ_le_succ eighth
    rw [if_pos up.2, if_pos many] at effect
    exact (exec_corrupt_frame p line s).trans (perform_after up.1 effect)
  · have few' : ¬ 8 ≤ (s.hub.link p).corrupt + 1 := by have := few; simp at this; omega
    have marked' : (s.hub.link p).nakMark = true := marked
    simp only [if_pos up.2, if_neg few', marked', if_true] at effect
    exact (exec_corrupt_frame p line s).trans (perform_after up.1 effect)
  · have few' : ¬ 8 ≤ (s.hub.link p).corrupt + 1 := by have := few; simp at this; omega
    have unmarked' : (s.hub.link p).nakMark = false := unmarked
    simp only [if_pos up.2, if_neg few', unmarked', Bool.false_eq_true, if_false] at effect
    exact (exec_corrupt_frame p line s).trans (perform_after up.1 effect)
  · rw [if_neg (by simp [training.2])] at effect
    exact (exec_corrupt_frame p line s).trans (perform_after training.1 effect)

/-! ### What UP sends (R171, R172, R174) -/

/-- A message framed for the first time (R172). -/
theorem frame_new_eq (l : Link) (now : Nat) (m : OutMessage) (rest : List OutMessage) :
    l.frameNew now m rest =
      { l with
        outbound := rest
        sendSeq := l.sendSeq + 1
        farRoom := l.farRoom - 1
        replay := l.replay ++ [⟨l.sendSeq, m⟩]
        replayTimer := if l.replay = [] then some (now + 12800) else l.replayTimer
        wire := l.wire ++ [frameBytes 1 l.sendSeq m.bytes] } := by
  simp only [Link.frameNew, List.isEmpty_iff, replayTime, periodsPerMicrosecond]
  rfl

/-- The frames from the first one with a sequence on. -/
theorem frames_from_first {sent rest : List SentFrame} {f : SentFrame} (earlier : ∀ x ∈ sent, x.seq ≠ f.seq) :
    framesFrom f.seq (sent ++ f :: rest) = f :: rest := by
  induction sent with
  | nil => exact if_pos rfl
  | cons x sent ih =>
    rw [List.cons_append, framesFrom, if_neg (earlier x (List.mem_cons_self ..))]
    exact ih (fun y hy => earlier y (List.mem_cons_of_mem _ hy))

/-- Settles O31, sending by sending. -/
theorem upSendsAcksMessagesAndRepeats : Obligations.UpSendsAcksMessagesAndRepeats := by
  intro s p up
  refine ⟨fun owed => ?_, fun m rest head short room idle flowing => ?_,
    fun q sent f rest point list named earlier flowing => ?_⟩
  · exact (exec_ack_sent p s).trans (perform_after up.1 (if_pos ⟨up.2, owed⟩))
  · have effect : s.hub.sendMessage p = some (s.hub.onLink p (fun l => l.frameNew s.hub.now m rest)) := by
      simp only [Hub.sendMessage, head]
      exact if_pos ⟨up.2, short, room, idle, flowing⟩
    rw [exec_message_frame_sent, perform_after up.1 effect, on_link_eq_const, frame_new_eq]
  · subst named
    have effect : s.hub.resendFrame p = some (s.hub.onLink p (fun l =>
        { l with wire := l.wire ++ [f.bytes], resend := rest.head?.map SentFrame.seq })) := by
      simp only [Hub.resendFrame, point, list, frames_from_first earlier]
      exact if_pos ⟨up.2, flowing⟩
    exact (exec_frame_resent p s).trans (perform_after up.1 effect)

/-! ### Link timers (R175) -/

/-- The link that sends its replay list again from the head `f`, or in the full wait the head alone (R175). -/
def replayed (l : Link) (now : Nat) (f : SentFrame) : Link :=
  let l := { l with replays := l.replays + 1, replayTimer := some (now + replayTime) }
  if l.fullWait then { l with wire := l.wire ++ [f.bytes] } else { l with resend := some f.seq }

theorem replayed_eq (l : Link) (now : Nat) (f : SentFrame) :
    replayed l now f =
      { l with
        replays := l.replays + 1
        replayTimer := some (now + 12800)
        wire := if l.fullWait = true then l.wire ++ [frameBytes 1 f.seq f.message.bytes] else l.wire
        resend := if l.fullWait = true then l.resend else some f.seq } := by
  unfold replayed
  by_cases waiting : l.fullWait = true
  · simp only [if_pos waiting]
    rfl
  · simp only [if_neg waiting]
    rfl

theorem replay_expiry_eq {h : Hub} {p : Port} {t : Nat} {f : SentFrame} {rest : List SentFrame}
    (up : (h.link p).state = .up) (timer : (h.link p).replayTimer = some t) (list : (h.link p).replay = f :: rest) :
    h.replayExpiry p = some (
      if 4 ≤ (h.link p).replays then (h.reach t).teardown p
      else (h.reach t).onLink p (fun l => replayed l (max h.now t) f)) := by
  simp only [Hub.replayExpiry, timer, list, if_pos up]
  show (if 4 ≤ (h.link p).replays then _ else _) = _
  split_ifs <;> rfl

theorem room_expiry_eq {h : Hub} {p : Port} {t : Nat} {m : OutMessage} {rest : List OutMessage}
    (up : (h.link p).state = .up) (timer : (h.link p).roomTimer = some t) (list : (h.link p).outbound = m :: rest)
    (empty : (h.link p).replay = []) :
    h.roomExpiry p = some ((h.reach t).onLink p (fun l => l.frameNew (max h.now t) m rest)) := by
  simp only [Hub.roomExpiry, timer, list, if_pos (And.intro up empty)]
  rfl

/-- Settles O32: the count of replays decides at the replay timer, and the probe of the room timer takes the room from 0
to 0. -/
theorem linkTimersReplayAndProbe : Obligations.LinkTimersReplayAndProbe := by
  intro s p t up
  refine ⟨fun f rest timer list => ⟨fun many => ?_, fun few => ?_⟩, fun m rest timer head empty no_room => ?_⟩
  · have effect := replay_expiry_eq up.2 timer list
    rw [if_pos many] at effect
    exact (exec_replay_timer_expiry p s).trans (perform_after up.1 effect)
  · have effect := replay_expiry_eq up.2 timer list
    rw [if_neg (Nat.not_le.mpr few), on_link_eq_const, replayed_eq] at effect
    exact (exec_replay_timer_expiry p s).trans (perform_after up.1 effect)
  · rw [exec_room_timer_expiry, perform_after up.1 (room_expiry_eq up.2 timer head empty), on_link_eq_const, frame_new_eq]
    have link : (s.hub.reach t).link p = s.hub.link p := rfl
    simp only [link, no_room, empty, if_true, List.nil_append]
    rfl

end Sys2Proof.Safety
end

section
/-! SUPPORT. Proofs of the statements on the row command lane, the banks and the channel-wide commands (chapters 2, 3, 5
and 6). -/

namespace Sys2Proof.Safety

open Sys2Proof.Machine

/-! ### What stands in the way of a command (R35) -/

theorem flight_none_iff (u : Scheduler) : u.flight.isNone = true ↔ u.flight = none := Option.isNone_iff_eq_none

theorem idle_iff (u : Scheduler) : u.idle = true ↔ u.burst = none ∧ u.flight = none := by simp [Scheduler.idle]

theorem all_closed_iff (u : Scheduler) : u.allClosed = true ↔ ∀ k ∈ u.banks, k.state = .closed := by
  simp [Scheduler.allClosed]

theorem in_flight_iff (u : Scheduler) (c : ChannelCommand) : u.inFlight c = true ↔ ∃ t, u.flight = some ⟨c, t⟩ := by
  unfold Scheduler.inFlight
  cases flying : u.flight with
  | none => simp
  | some f =>
    obtain ⟨d, t⟩ := f
    simp

theorem upkeep_demanded_iff (h : Hub) : h.upkeepDemanded = true ↔
    h.rest.items.upkeep = true ∨ h.config.bringupItems.upkeep = true ∨
      (h.upkeep.items.upkeep = true ∧ h.config.change = none) := by
  simp [Hub.upkeepDemanded, or_assoc]

theorem all_close_ready_iff (h : Hub) : h.allCloseReady = true ↔
    h.config.bringupItems.allClose = true ∧ h.scheduler.burst = none ∧ h.scheduler.flight = none := by
  rw [Hub.allCloseReady, Bool.and_eq_true, idle_iff]

theorem mode_load_ready_iff (h : Hub) : h.modeLoadReady = true ↔
    h.config.bringupItems.modeLoad = true ∧ (∀ k ∈ h.scheduler.banks, k.state = .closed) ∧
      h.scheduler.flight = none := by
  rw [Hub.modeLoadReady, Bool.and_eq_true, Bool.and_eq_true, all_closed_iff, flight_none_iff, and_assoc,
    and_comm (a := h.scheduler.flight = none)]

theorem upkeep_ready_iff (h : Hub) : h.upkeepReady = true ↔
    (h.rest.items.upkeep = true ∨ h.config.bringupItems.upkeep = true ∨
        (h.upkeep.items.upkeep = true ∧ h.config.change = none)) ∧
      (∀ k ∈ h.scheduler.banks, k.state = .closed) ∧ h.scheduler.burst = none ∧ h.scheduler.flight = none := by
  rw [Hub.upkeepReady, Bool.and_eq_true, Bool.and_eq_true, upkeep_demanded_iff, all_closed_iff, idle_iff, and_assoc]

theorem retain_enter_ready_iff (h : Hub) : h.retainEnterReady = true ↔
    h.rest.items.retainEnter = true ∧ (∀ k ∈ h.scheduler.banks, k.state = .closed) ∧ h.scheduler.burst = none ∧
      h.scheduler.flight = none := by
  rw [Hub.retainEnterReady, Bool.and_eq_true, Bool.and_eq_true, all_closed_iff, idle_iff, and_assoc]

theorem retain_exit_ready_iff (h : Hub) : h.retainExitReady = true ↔
    (h.rest.items.retainExit = true ∨ h.config.items.retainExit = true) ∧ h.dram.retention = true ∧
      h.scheduler.flight = none := by
  rw [Hub.retainExitReady, Bool.and_eq_true, Bool.and_eq_true, Bool.or_eq_true, flight_none_iff, and_assoc]

/-! ### The rotation (R36, R37) -/

/-- A turn of the rotation: `b` stands `turnOf` places after the bank where the rotation begins. -/
def turnOf (n lastServed b : Nat) : Nat := if lastServed < n then (b + n - 1 - lastServed) % n else b

/-- The bank at place `i` of the rotation has the turn `i`. -/
theorem turn_of_place {n last i : Nat} (inside : i < n) :
    turnOf n last (((if last + 1 < n then last + 1 else 0) + i) % n) = i := by
  unfold turnOf
  by_cases served : last < n
  · rw [if_pos served]
    by_cases inner : last + 1 < n
    · rw [if_pos inner]
      by_cases wraps : last + 1 + i < n
      · rw [Nat.mod_eq_of_lt wraps, show last + 1 + i + n - 1 - last = i + n by omega, Nat.add_mod_right,
          Nat.mod_eq_of_lt inside]
      · have wrapped : (last + 1 + i) % n = last + 1 + i - n := by
          rw [Nat.mod_eq_sub_mod (by omega), Nat.mod_eq_of_lt (by omega)]
        rw [wrapped, show last + 1 + i - n + n - 1 - last = i by omega, Nat.mod_eq_of_lt inside]
    · rw [if_neg inner, Nat.zero_add, Nat.mod_eq_of_lt inside, show i + n - 1 - last = i by omega,
        Nat.mod_eq_of_lt inside]
  · rw [if_neg served, if_neg (by omega), Nat.zero_add, Nat.mod_eq_of_lt inside]

/-- The bank of a turn stands at that place of the rotation. -/
theorem place_of_turn {n last b : Nat} (inside : b < n) :
    turnOf n last b < n ∧ ((if last + 1 < n then last + 1 else 0) + turnOf n last b) % n = b := by
  unfold turnOf
  by_cases served : last < n
  · rw [if_pos served]
    refine ⟨Nat.mod_lt _ (by omega), ?_⟩
    by_cases before : b ≤ last
    · rw [Nat.mod_eq_of_lt (show b + n - 1 - last < n by omega)]
      by_cases inner : last + 1 < n
      · rw [if_pos inner, show last + 1 + (b + n - 1 - last) = b + n by omega, Nat.add_mod_right, Nat.mod_eq_of_lt inside]
      · rw [if_neg inner, show 0 + (b + n - 1 - last) = b by omega, Nat.mod_eq_of_lt inside]
    · rw [Nat.mod_eq_sub_mod (show n ≤ b + n - 1 - last by omega),
        Nat.mod_eq_of_lt (show b + n - 1 - last - n < n by omega), if_pos (by omega),
        show last + 1 + (b + n - 1 - last - n) = b by omega, Nat.mod_eq_of_lt inside]
  · rw [if_neg served, if_neg (by omega)]
    exact ⟨inside, by rw [Nat.zero_add, Nat.mod_eq_of_lt inside]⟩

/-- The first bank of the rotation that has a command ready comes before every other one that has. -/
theorem first_ready_in_rotation {h : Hub} {b : Nat} {c : BankCommand}
    (found : h.scheduler.rotation.findSome? (fun b => (h.bankReady b).map (fun c => (b, c))) = some (b, c)) :
    h.bankReady b = some c ∧ ∀ k < h.scheduler.banks.length, h.bankReady k ≠ none →
      turnOf h.scheduler.banks.length h.scheduler.lastServed b ≤
        turnOf h.scheduler.banks.length h.scheduler.lastServed k := by
  obtain ⟨older, a, later, split, picked, earlier⟩ := List.findSome?_eq_some_iff.mp found
  obtain ⟨c', ready, same⟩ := Option.map_eq_some_iff.mp picked
  cases same
  refine ⟨ready, fun k inside isReady => ?_⟩
  obtain ⟨turn, place⟩ := place_of_turn (last := h.scheduler.lastServed) inside
  have length : older.length < h.scheduler.banks.length := by
    have total := congrArg List.length split
    simp only [Scheduler.rotation, List.length_map, List.length_range, List.length_append, List.length_cons] at total
    omega
  have position : ∀ i < h.scheduler.banks.length, h.scheduler.rotation[i]? =
      some (((if h.scheduler.lastServed + 1 < h.scheduler.banks.length then h.scheduler.lastServed + 1 else 0) + i) %
        h.scheduler.banks.length) := by
    intro i hi
    simp [Scheduler.rotation, hi]
  have own : turnOf h.scheduler.banks.length h.scheduler.lastServed b = older.length := by
    have at_ := position older.length length
    rw [split, List.getElem?_append_right (Nat.le_refl _), Nat.sub_self, List.getElem?_cons_zero, Option.some_inj] at at_
    rw [at_, turn_of_place length]
  rw [own]
  by_contra later_turn
  have inOlder : k ∈ older := by
    have at_ := position _ turn
    rw [place, split, List.getElem?_append_left (by omega)] at at_
    exact List.mem_of_getElem? at_
  have unready := earlier k inOlder
  rw [Option.map_eq_none_iff] at unready
  exact isReady unready

theorem bank_ready_inside {h : Hub} {b : Nat} (ready : h.bankReady b ≠ none) : b < h.scheduler.banks.length := by
  by_contra outside
  apply ready
  rw [Hub.bankReady, List.getElem?_eq_none (Nat.not_lt.mp outside)]

/-- Settles O34: the rotation is searched in its order, and each channel-wide command has its conditions. -/
theorem laneServesTheNextReadyBankInRotation : Obligations.LaneServesTheNextReadyBankInRotation := by
  intro h
  refine ⟨fun channelReady => if_pos channelReady, fun noneReady => ?_, ?_, all_closed_iff _, in_flight_iff _⟩
  · have search : h.laneServes = h.scheduler.rotation.findSome? (fun b => (h.bankReady b).map (fun c => (b, c))) :=
      if_neg (ne_true_of_eq_false noneReady)
    refine ⟨fun b c serves => first_ready_in_rotation (search.symm.trans serves), fun idle b => ?_⟩
    by_contra ready
    obtain ⟨turn, place⟩ := place_of_turn (last := h.scheduler.lastServed) (bank_ready_inside ready)
    have member : b ∈ h.scheduler.rotation := by
      simp only [Scheduler.rotation, List.mem_map, List.mem_range]
      exact ⟨_, turn, place⟩
    have unready := List.findSome?_eq_none_iff.mp (search.symm.trans idle) b member
    exact ready (Option.map_eq_none_iff.mp unready)
  · rw [Hub.channelCommandReady, Bool.or_eq_true, Bool.or_eq_true, Bool.or_eq_true, Bool.or_eq_true,
      all_close_ready_iff, mode_load_ready_iff, upkeep_ready_iff, retain_enter_ready_iff, retain_exit_ready_iff, or_assoc,
      or_assoc, or_assoc]

/-! ### Row commands and bank events (R31–R33, R36) -/

/-- An update of a bank record that is known. -/
theorem modify_known {banks : List Bank} {b : Nat} {k : Bank} (known : banks[b]? = some k) (f : Bank → Bank) :
    banks.modify b f = banks.set b (f k) := by
  obtain ⟨inside, rfl⟩ := List.getElem?_eq_some_iff.mp known
  rw [List.modify_eq_set_getElem? , List.getElem?_eq_getElem inside]
  rfl

theorem on_bank_eq {h : Hub} {b : Nat} {k : Bank} (known : h.scheduler.banks[b]? = some k) (f : Bank → Bank) :
    h.onBank b f = { h with scheduler := { h.scheduler with banks := h.scheduler.banks.set b (f k) } } := by
  rw [Hub.onBank, modify_known known]

/-- Settles O37, command by command and event by event. -/
theorem rowCommandsAndBankEventsMoveTheBank : Obligations.RowCommandsAndBankEventsMoveTheBank := by
  refine ⟨fun s b k running known => ⟨fun e serves => ?_, fun serves => ?_⟩,
    fun s b k t running known => ⟨fun opening due => ?_, fun closing due => ?_, fun mark => ?_, fun mark => ?_⟩⟩
  · have serves' : s.hub.atLane.laneServes = some (b.val, .openFor e) := serves
    have known' : ((s.hub.atLane.onLane (.rowOpen b.val e.row)).served b.val).scheduler.banks[b.val]? = some k := known
    rw [exec_row_open, perform_after running]
    simp only [Hub.issueRowOpen, serves', if_true, on_bank_eq known']
    rfl
  · have serves' : s.hub.atLane.laneServes = some (b.val, .close) := serves
    have known' : ((s.hub.atLane.onLane (.rowClose b.val)).served b.val).scheduler.banks[b.val]? = some k := known
    rw [exec_row_close, perform_after running]
    simp only [Hub.issueRowClose, serves', if_true, on_bank_eq known']
    rfl
  · have known' : (s.hub.reach t).scheduler.banks[b.val]? = some k := known
    rw [exec_bank_opened, perform_after running]
    simp only [Hub.bankOpens, known, opening, due, on_bank_eq known', Hub.closeAll, Bool.or_assoc]
    rfl
  · have known' : (s.hub.reach t).scheduler.banks[b.val]? = some k := known
    rw [exec_bank_closed, perform_after running]
    simp only [Hub.bankCloses, known, closing, due, on_bank_eq known']
    rfl
  · rw [exec_open_mark_passed, perform_after running]
    simp only [Hub.passOpenMark, known, mark]
    rfl
  · have known' : (s.hub.reach t).scheduler.banks[b.val]? = some k := known
    rw [exec_write_recovery_mark_passed, perform_after running]
    simp only [Hub.passWriteMark, known, mark, Option.map_some, on_bank_eq known']
    rfl

/-! ### Channel-wide commands (R35) -/

/-- A landing of the command in flight. -/
theorem landed_eq {h : Hub} {c : ChannelCommand} {t : Nat} (flying : h.scheduler.flight = some ⟨c, t⟩) :
    h.landed c = some { h with now := max h.now t, scheduler := { h.scheduler with flight := none } } := by
  simp only [Hub.landed, flying, if_true]
  rfl

/-- Settles O47: each command is ready under its conditions and launched for its time; each completion acts on the hub at
its landing. -/
theorem channelWideCommandsAreIssuedAndComplete : Obligations.ChannelWideCommandsAreIssuedAndComplete := by
  refine ⟨fun s running free => ⟨fun demanded noBurst => ?_, fun demanded closed => ?_,
    fun demanded closed noBurst => ?_, fun demanded closed noBurst => ?_, fun demanded retained => ?_⟩,
    fun s t running => ⟨fun flying => ?_, fun flying => ?_, fun flying => ?_⟩⟩
  · have ready : s.hub.atLane.allCloseReady = true := (all_close_ready_iff _).mpr ⟨demanded, noBurst, free⟩
    exact (exec_all_close s).trans (perform_after running (if_pos ready))
  · have ready : s.hub.atLane.modeLoadReady = true := (mode_load_ready_iff _).mpr ⟨demanded, closed, free⟩
    exact (exec_mode_load s).trans (perform_after running (if_pos ready))
  · have ready : s.hub.atLane.upkeepReady = true := (upkeep_ready_iff _).mpr ⟨demanded, closed, noBurst, free⟩
    exact (exec_upkeep s).trans (perform_after running (if_pos ready))
  · have ready : s.hub.atLane.retainEnterReady = true :=
      (retain_enter_ready_iff _).mpr ⟨demanded, closed, noBurst, free⟩
    have flight : s.hub.scheduler = { s.hub.scheduler with flight := none } := by rw [← free]
    rw [exec_retain_enter, perform_after running (if_pos ready)]
    congr 2
    simp only [Hub.onLane, Hub.atLane, Hub.reach]
    rw [← free]
    rfl
  · have ready : s.hub.atLane.retainExitReady = true := (retain_exit_ready_iff _).mpr ⟨demanded, retained, free⟩
    exact (exec_retain_exit s).trans (perform_after running (if_pos ready))
  · rw [exec_all_close_complete, perform_after running (by rw [Hub.completeAllClose, landed_eq flying]; rfl)]
    rfl
  · rw [exec_mode_load_complete, perform_after running (by rw [Hub.completeModeLoad, landed_eq flying]; rfl)]
  · rw [exec_retain_exit_complete, perform_after running (by rw [Hub.completeRetainExit, landed_eq flying]; rfl)]

end Sys2Proof.Safety
end

section
/-! SUPPORT. Proofs of the statements on candidates, ready bank commands and the data lane (chapter 2). -/

namespace Sys2Proof.Safety

open Sys2Proof.Machine

/-! ### Candidates (R38–R40) -/

theorem hit_iff (k : Bank) (e : Entry) :
    k.hit e = true ↔ (k.state = .opening ∨ k.state = .opened) ∧ k.row = some e.row := by
  simp [Bank.hit]

theorem active_unmarked_iff (e : Entry) : e.activeUnmarked = true ↔ e.phase = .active ∧ e.aborting = none := by
  simp [Entry.activeUnmarked]

theorem servable_iff (e : Entry) :
    e.servable = true ↔ e.phase = .queued ∨ (e.phase = .active ∧ e.aborting = none) := by
  simp [Entry.servable, active_unmarked_iff]

/-- The first entry of a list that meets a condition. -/
theorem find_first {α : Type} {c : α → Bool} {older newer : List α} {e : α} (meets : c e = true)
    (none_older : ∀ x ∈ older, c x = false) : (older ++ e :: newer).find? c = some e := by
  rw [List.find?_append, List.find?_eq_none.mpr (fun x hx => by simp [none_older x hx]), List.find?_cons_of_pos meets]
  rfl

/-- What stands ahead of the first hit of a list. -/
theorem take_before_hit {α : Type} {c : α → Bool} {older newer : List α} {e : α} (meets : c e = true)
    (none_older : ∀ x ∈ older, c x = false) : (older ++ e :: newer).takeWhile (fun x => !c x) = older := by
  rw [List.takeWhile_append_of_pos (fun x hx => by simp [none_older x hx]), List.takeWhile_cons_of_neg (by simp [meets]),
    List.append_nil]

/-- With an ACTIVE entry among those eligible, it is the candidate. -/
theorem candidate_active {k : Bank} {limit : Nat} {es : List Entry} {e : Entry}
    (found : es.find? Entry.activeUnmarked = some e) : candidateAmong k limit es = some e := by
  simp only [candidateAmong, found]

/-- With none ACTIVE, the head is the candidate where it is a hit or nothing is. -/
theorem candidate_head {k : Bank} {limit : Nat} {head : Entry} {rest : List Entry}
    (idle : ∀ x ∈ head :: rest, x.activeUnmarked = false)
    (plain : k.hit head = true ∨ ∀ x ∈ head :: rest, k.hit x = false) :
    candidateAmong k limit (head :: rest) = some head := by
  have noneActive : (head :: rest).find? Entry.activeUnmarked = none :=
    List.find?_eq_none.mpr (fun x hx => by simp [idle x hx])
  rw [candidateAmong, noneActive]
  rcases plain with hits | misses
  · simp only [hits, if_true]
  · have noHit : (head :: rest).find? (fun e => k.hit e) = none :=
      List.find?_eq_none.mpr (fun x hx => by simp [misses x hx])
    simp only [misses head List.mem_cons_self, noHit, Bool.false_eq_true, if_false]

/-- With none ACTIVE and the head a miss, the oldest hit is the candidate unless one ahead of it is at the limit. -/
theorem candidate_oldest_hit {k : Bank} {limit : Nat} {head e : Entry} {rest newer : List Entry}
    (idle : ∀ x ∈ head :: (rest ++ e :: newer), x.activeUnmarked = false) (hits : k.hit e = true)
    (misses : ∀ x ∈ head :: rest, k.hit x = false) :
    candidateAmong k limit (head :: (rest ++ e :: newer)) =
      some (if ∃ x ∈ head :: rest, x.passed = limit then head else e) := by
  have noneActive : (head :: (rest ++ e :: newer)).find? Entry.activeUnmarked = none :=
    List.find?_eq_none.mpr (fun x hx => by simp [idle x hx])
  have first : (head :: (rest ++ e :: newer)).find? (fun e => k.hit e) = some e := by
    rw [← List.cons_append]
    exact find_first hits misses
  have ahead : (head :: (rest ++ e :: newer)).takeWhile (fun e => !k.hit e) = head :: rest := by
    rw [← List.cons_append]
    exact take_before_hit hits misses
  rw [candidateAmong, noneActive]
  simp only [misses head List.mem_cons_self, first, ahead, Bool.false_eq_true, if_false, List.any_eq_true, beq_iff_eq]
  split <;> rfl

/-- The passed counts of the entries ahead of the one granted (R40). -/
theorem raise_passed_eq {k : Bank} {e : Entry} {older newer : List Entry} (others : ∀ x ∈ older, x.index ≠ e.index) :
    raisePassed k e (older ++ e :: newer) = older.map (fun x =>
      if x.bank = e.bank ∧ x.phase = .queued ∧ k.hit x = false then { x with passed := min (x.passed + 1) 15 }
      else x) ++ e :: newer := by
  induction older with
  | nil => exact if_pos rfl
  | cons x older ih =>
    rw [List.cons_append, raisePassed, if_neg (others x List.mem_cons_self),
      ih (fun y hy => others y (List.mem_cons_of_mem _ hy))]
    rfl

theorem candidate_eq {h : Hub} {b : Nat} {k : Bank} (known : h.scheduler.banks[b]? = some k) :
    h.candidate b = candidateAmong k h.config.committed.bypassLimit (h.eligible b) := by
  rw [Hub.candidate, known]

/-- Settles O35: the choice by the places of the ACTIVE entry and of the oldest hit, then the counts by induction on the
entries ahead. -/
theorem candidateAndPassedCountsFollowR39AndR40 : Obligations.CandidateAndPassedCountsFollowR39AndR40 := by
  refine ⟨fun k limit es => ⟨fun older e newer split active idle => ?_, fun idle => ⟨fun empty => ?_,
      fun head rest split misses => ?_, fun head rest older e newer split place hits misses => ?_⟩,
      fun older e newer split others => split ▸ raise_passed_eq others⟩,
    fun k e => ⟨hit_iff k e, active_unmarked_iff e⟩,
    fun h b => ⟨List.filter_congr fun e _ => ?_, fun absent => by rw [Hub.candidate, absent],
      fun k known => candidate_eq known⟩⟩
  · exact candidate_active (split ▸ find_first active idle)
  · subst empty
    rfl
  · subst split
    exact candidate_head idle (.inr misses)
  · cases older with
    | nil =>
      obtain ⟨rfl, rfl⟩ := List.cons.inj (split.symm.trans place)
      subst split
      rw [if_neg (by simp)]
      exact candidate_head idle (.inl hits)
    | cons x older =>
      obtain ⟨rfl, rfl⟩ := List.cons.inj (split.symm.trans place)
      subst split
      exact candidate_oldest_hit idle hits misses
  · rw [Bool.eq_iff_iff, Bool.and_eq_true, decide_eq_true_iff, servable_iff, beq_iff_eq]

/-! ### The ready command of a bank (R32, R33) -/

theorem mark_passed_iff (mark : Option Nat) (now : Nat) :
    markPassed mark now = true ↔ ∀ t, mark = some t → t ≤ now := by
  cases mark <;> simp [markPassed]

theorem burst_to_iff (u : Scheduler) (b : Nat) : u.burstTo b = false ↔ ∀ x, u.burst = some x → x.bank ≠ b := by
  unfold Scheduler.burstTo
  cases u.burst <;> simp

theorem closing_allowed_iff (h : Hub) (b : Nat) (k : Bank) : h.closingAllowed b k = true ↔
    k.state = .opened ∧ (∀ t, k.openMark = some t → t ≤ h.now) ∧ (∀ t, k.writeMark = some t → t ≤ h.now) ∧
      ∀ x, h.scheduler.burst = some x → x.bank ≠ b := by
  simp only [Hub.closingAllowed, Bool.and_eq_true, beq_iff_eq, mark_passed_iff, Bool.not_eq_true', burst_to_iff, and_assoc]

theorem opens_withheld_iff (h : Hub) : h.opensWithheld = false ↔
    h.upkeep.items.opensWithheld = false ∧ h.config.items.opensWithheld = false := by
  simp [Hub.opensWithheld]

theorem starts_withheld_iff (h : Hub) : h.startsWithheld = true ↔
    h.upkeep.items.startsWithheld = true ∨ h.config.items.startsWithheld = true := by
  simp [Hub.startsWithheld]

/-- The needs of a ROW_CLOSE. -/
theorem close_needed_iff {h : Hub} {b : Nat} {k : Bank} (known : h.scheduler.banks[b]? = some k) :
    h.closeNeeded b k = true ↔
      (h.channel = .serving ∧ ((∃ e, h.candidate b = some e ∧ k.hit e = false) ∨
        (h.config.committed.rowPolicy = .closeAfter ∧ ∀ e ∈ h.eligible b, k.hit e = false))) ∨
      (k.closeRequested = true ∧ ∀ e ∈ h.eligible b, e.activeUnmarked = false) := by
  rw [candidate_eq known, Hub.closeNeeded]
  cases candidateAmong k h.config.committed.bypassLimit (h.eligible b) <;> simp

theorem bank_ready_flying {h : Hub} (flying : h.scheduler.flight ≠ none) (b : Nat) : h.bankReady b = none := by
  have up : h.scheduler.flight.isSome = true := Option.isSome_iff_ne_none.mpr flying
  unfold Hub.bankReady
  split
  · rfl
  · rw [if_pos up]

theorem bank_ready_closed {h : Hub} {b : Nat} {k : Bank} (known : h.scheduler.banks[b]? = some k)
    (free : h.scheduler.flight = none) (closed : k.state = .closed) : h.bankReady b =
      if h.channel = .serving ∧ h.opensWithheld = false then (h.candidate b).map BankCommand.openFor else none := by
  simp only [Hub.bankReady, known, free, closed, candidate_eq known, Option.isSome_none, Bool.false_eq_true, if_false,
    if_true]

theorem bank_ready_open {h : Hub} {b : Nat} {k : Bank} (known : h.scheduler.banks[b]? = some k)
    (free : h.scheduler.flight = none) (unclosed : k.state ≠ .closed) : h.bankReady b =
      if h.closingAllowed b k = true ∧ h.closeNeeded b k = true then some .close else none := by
  simp only [Hub.bankReady, known, free, unclosed, Option.isSome_none, Bool.false_eq_true, if_false]

/-- Settles O36: a CLOSED bank can only be opened and an OPEN one only be closed, each under its conditions. -/
theorem bankCommandsAreReadyAsR32AndR33Say : Obligations.BankCommandsAreReadyAsR32AndR33Say := by
  intro h b k known
  refine ⟨fun flying => bank_ready_flying flying b, fun free closed => ?_, fun free unclosed => ?_⟩
  · rw [bank_ready_closed known free closed]
    by_cases allowed : h.channel = .serving ∧ h.opensWithheld = false
    · rw [if_pos allowed]
      cases h.candidate b <;> simp [allowed.1, (opens_withheld_iff h).mp allowed.2]
    · rw [if_neg allowed]
      simp only [reduceCtorEq, ne_eq, not_false_eq_true, false_iff, true_and]
      exact fun e both => allowed ⟨both.1, (opens_withheld_iff h).mpr ⟨both.2.1, both.2.2.1⟩⟩
  · rw [bank_ready_open known free unclosed]
    refine ⟨fun e => by split <;> simp, ?_⟩
    rw [ite_eq_left_iff]
    simp only [reduceCtorEq, imp_false, not_not, closing_allowed_iff, close_needed_iff known, and_assoc]

/-! ### The data lane (R46) -/

theorem grant_withheld {h : Hub}
    (withheld : h.scheduler.burst ≠ none ∨ h.scheduler.inFlight .upkeep = true ∨ h.channel ≠ .serving) :
    h.grant = none :=
  if_pos (withheld.imp_left Option.isSome_iff_ne_none.mpr)

/-- The grant over a free lane. -/
theorem grant_eq {h : Hub} (free : h.scheduler.burst = none) (rested : h.scheduler.inFlight .upkeep = false)
    (serving : h.channel = .serving) : h.grant =
      match h.table.find? Entry.activeUnmarked with
      | some e => if h.continuable e then some e else none
      | none => h.table.find? (fun e => e.servable && h.grantable e) := by
  simp only [Hub.grant, free, rested, serving, Option.isSome_none, Bool.false_eq_true, ne_eq, not_true_eq_false, or_self,
    if_false] <;> rfl

/-- At most one entry is ACTIVE without an aborting mark, so the first found is every one. -/
theorem find_active {h : Hub} (one : OneActiveLaw h) {e : Entry} (member : e ∈ h.table) (active : e.activeUnmarked = true) :
    h.table.find? Entry.activeUnmarked = some e := by
  have inFilter : e ∈ h.table.filter Entry.activeUnmarked := List.mem_filter.mpr ⟨member, active⟩
  obtain ⟨x, single⟩ := List.length_eq_one_iff.mp (Nat.le_antisymm one.2 (List.length_pos_of_mem inFilter))
  rw [single, List.mem_singleton] at inFilter
  rw [← List.head?_filter, single, inFilter]
  rfl

/-- The bank of an entry is OPEN at the entry's row. -/
def OpenAt (h : Hub) (e : Entry) : Prop :=
  ∃ k, h.scheduler.banks[e.bank]? = some k ∧ k.state = .opened ∧ k.row = some e.row

/-- A first burst of an entry may start. -/
def MayStart (h : Hub) (e : Entry) : Prop :=
  e.phase = .queued ∧ h.candidate e.bank = some e ∧ h.startsWithheld = false ∧
    ∃ k, h.scheduler.banks[e.bank]? = some k ∧ k.state = .opened ∧ k.row = some e.row ∧ k.closeRequested = false

theorem continuable_iff (h : Hub) (e : Entry) : h.continuable e = true ↔ e.wordsDone < e.words ∧ OpenAt h e := by
  unfold Hub.continuable OpenAt
  cases h.scheduler.banks[e.bank]? <;> simp

theorem may_start_iff {h : Hub} {e : Entry} (idle : e.activeUnmarked = false) :
    (e.servable && h.grantable e) = true ↔ MayStart h e := by
  have queued : e.servable = true ↔ e.phase = .queued := by simp [Entry.servable, idle]
  unfold Hub.grantable MayStart Hub.candidate
  rw [Bool.and_eq_true, queued]
  cases h.scheduler.banks[e.bank]? with
  | none => simp
  | some k =>
    simp only [Bool.and_eq_true, beq_iff_eq, hit_iff, Bool.not_eq_true', Option.some.injEq, exists_eq_left']
    constructor
    · rintro ⟨phase, (⟨⟨⟨candidate, -, row⟩, opened⟩, clear⟩), starts⟩
      exact ⟨phase, candidate, starts, opened, row, clear⟩
    · rintro ⟨phase, candidate, starts, opened, row, clear⟩
      exact ⟨phase, ⟨⟨⟨candidate, .inr opened, row⟩, opened⟩, clear⟩, starts⟩

/-- Settles O38: the ACTIVE entry is the only one found, and without one the oldest that may start is found. -/
theorem dataLaneIsGrantedAsR46Says : Obligations.DataLaneIsGrantedAsR46Says := by
  refine ⟨fun h one => ⟨grant_withheld, fun free rested serving => ⟨fun e member active => ?_, fun idle => ?_⟩⟩,
    starts_withheld_iff⟩
  · have granted : h.grant = if h.continuable e then some e else none := by
      rw [grant_eq free rested serving, find_active one member active]
    rw [granted]
    exact ⟨fun left fits => if_pos ((continuable_iff h e).mpr ⟨left, fits⟩),
      fun stuck => if_neg (fun may => stuck ((continuable_iff h e).mp may))⟩
  · have search : h.grant = h.table.find? (fun e => e.servable && h.grantable e) := by
      rw [grant_eq free rested serving, List.find?_eq_none.mpr (fun x hx => by simp [idle x hx])]
    rw [search]
    refine ⟨fun older e newer split starts unready => ?_, fun unready => ?_⟩
    · have idle' : ∀ x ∈ older ++ e :: newer, x.activeUnmarked = false := split ▸ idle
      rw [split]
      exact find_first ((may_start_iff (idle' e (by simp))).mpr starts)
        (fun x hx => Bool.eq_false_iff.mpr fun meets =>
          unready x hx ((may_start_iff (idle' x (by simp [hx]))).mp meets))
    · exact List.find?_eq_none.mpr fun x hx meets => unready x hx ((may_start_iff (idle x hx)).mp meets)

/-! ### Column commands (R34, R47) -/

/-- A column command for the entry granted, inside the memory. -/
theorem column_inside {s : State} {e : Entry} {kind : Access} (running : Running s) (granted : s.hub.grant = some e)
    (same : e.kind = kind) (inside : e.burstAddr + e.burstWords * 8 ≤ s.hub.config.committed.memorySize) :
    s.column e.index kind = after s (s.hub.startBurst e) := by
  unfold State.column
  rw [if_neg (ne_true_of_eq_false running), granted]
  exact (if_pos ⟨rfl, same⟩).trans (if_neg (Nat.not_lt.mpr inside))

/-- A column command for the entry granted, beyond the memory. -/
theorem column_beyond {s : State} {e : Entry} {kind : Access} (running : Running s) (granted : s.hub.grant = some e)
    (same : e.kind = kind) (beyond : s.hub.config.committed.memorySize < e.burstAddr + e.burstWords * 8) :
    s.column e.index kind = .fault .addressOutsideMemory := by
  unfold State.column
  rw [if_neg (ne_true_of_eq_false running), granted]
  exact (if_pos ⟨rfl, same⟩).trans (if_pos beyond)

/-- The hub with the next burst of an entry on the data lane. -/
def burstStarted (h : Hub) (e : Entry) (d : DramCommand) (x : Burst) : Hub :=
  let bank := (h.scheduler.banks[e.bank]?).getD Bank.closedRecord
  { h with
    table := (if e.wordsDone = 0 then raisePassed bank e h.table else h.table).map
      (fun (y : Entry) => if y.index = e.index then { y with phase := .active } else y)
    scheduler := { h.scheduler with
      burst := some x
      hits := if e.wordsDone = 0 ∧ bank.openedFor ≠ some e.index then rise32 h.scheduler.hits else h.scheduler.hits }
    dram := { h.dram with issued := h.dram.issued ++ [d] } }

theorem start_burst_eq (h : Hub) (e : Entry) : h.startBurst e = burstStarted h e
    (match e.kind with
      | .read => .colRead e.bank e.row (h.config.committed.columnOf e.burstAddr) e.burstWords
      | .write => .colWrite e.bank e.row (h.config.committed.columnOf e.burstAddr) e.burstWords)
    (h.nextBurst e) := by
  unfold Hub.startBurst burstStarted
  simp only [beq_iff_eq, Bool.and_eq_true, bne_iff_ne]
  rfl

/-- Settles O39. -/
theorem columnCommandsStartTheNextBurst : Obligations.ColumnCommandsStartTheNextBurst := by
  intro s e running granted
  refine ⟨fun inside => ⟨fun kind => ?_, fun kind => ?_⟩, fun beyond => ⟨fun kind => ?_, fun kind => ?_⟩⟩
  · rw [exec_col_read, column_inside running granted kind inside, start_burst_eq, Hub.nextBurst, kind]
    rfl
  · rw [exec_col_write, column_inside running granted kind inside, start_burst_eq, Hub.nextBurst, kind]
    rfl
  · exact column_beyond running granted kind beyond
  · exact column_beyond running granted kind beyond

end Sys2Proof.Safety
end

section
/-! SUPPORT. Proofs of the statements on the address map, the memory and its check code, and the completion of bursts
(chapters 1, 2 and 8). -/

namespace Sys2Proof.Safety

open Sys2Proof.Machine

/-! ### The address map (R29) -/

/-- Settles O41: the address is put together again from its bank, row, segment and word. -/
theorem addressMapIsOneToOne : Obligations.AddressMapIsOneToOne := by
  refine ⟨fun c a b banks ⟨n, pages, page⟩ insideA insideB sameBank sameRow sameColumn => ?_,
    fun c a => ⟨rfl, rfl, rfl, rfl⟩⟩
  have segments : c.page / 256 = n := by omega
  have whole : ∀ x, x < c.banks * 2 ^ c.rowBits * c.page →
      x / (256 * c.banks * (c.page / 256)) % 2 ^ c.rowBits = x / 256 / c.banks / n := by
    intro x inside
    have row : x / (256 * c.banks * n) < 2 ^ c.rowBits := by
      refine Nat.div_lt_of_lt_mul (lt_of_lt_of_eq inside ?_)
      rw [page]
      ring
    rw [segments, Nat.mod_eq_of_lt row, ← Nat.div_div_eq_div_mul, ← Nat.div_div_eq_div_mul]
  have rows : a / 256 / c.banks / n = b / 256 / c.banks / n := by
    rw [← whole a insideA, ← whole b insideB]
    exact sameRow
  have column : ∀ x, c.columnOf x = x / 256 / c.banks % n * 32 + x % 256 / 8 := by
    intro x
    rw [Params.columnOf, Params.segmentInPage, segments, Nat.div_div_eq_div_mul]
  rw [column, column] at sameColumn
  have places : a / 256 / c.banks % n = b / 256 / c.banks % n := by omega
  have pagesSame : a / 256 / c.banks = b / 256 / c.banks := by
    rw [← Nat.div_add_mod (a / 256 / c.banks) n, rows, places, Nat.div_add_mod]
  have segmentSame : a / 256 = b / 256 := by
    rw [← Nat.div_add_mod (a / 256) c.banks, pagesSame, show a / 256 % c.banks = b / 256 % c.banks from sameBank,
      Nat.div_add_mod]
  omega

/-! ### Numbers, least significant byte first (R153) -/

@[simp] theorem le_bytes_length (k n : Nat) : (leBytes k n).length = k := by
  induction k generalizing n with
  | zero => rfl
  | succ k ih => rw [leBytes, List.length_cons, ih]

theorem le_bytes_getElem {k n i : Nat} (inside : i < k) : (leBytes k n)[i]? = some (BitVec.ofNat 8 (n / 256 ^ i)) := by
  induction k generalizing n i with
  | zero => omega
  | succ k ih =>
    cases i with
    | zero => simp [leBytes]
    | succ i =>
      rw [leBytes, List.getElem?_cons_succ, ih (by omega), Nat.div_div_eq_div_mul, pow_succ, mul_comm]

/-- The number that the bytes of a number spell. -/
theorem le_nat_le_bytes (k n : Nat) : leNat (leBytes k n) = n % 256 ^ k := by
  induction k generalizing n with
  | zero => simp [leBytes, leNat, Nat.mod_one]
  | succ k ih =>
    rw [leBytes, leNat, ih, BitVec.toNat_ofNat, show 2 ^ 8 = 256 from rfl, pow_succ, mul_comm (256 ^ k),
      Nat.mod_mul]

theorem le_nat_lt (bs : List Byte) : leNat bs < 256 ^ bs.length := by
  induction bs with
  | nil => exact Nat.one_pos
  | cons b bs ih =>
    rw [leNat, List.length_cons, pow_succ]
    have := b.isLt
    omega

/-- The bytes of the number that bytes spell. -/
theorem le_bytes_le_nat (bs : List Byte) : leBytes bs.length (leNat bs) = bs := by
  induction bs with
  | nil => rfl
  | cons b bs ih =>
    have low := b.isLt
    rw [List.length_cons, leBytes, leNat, Nat.add_mul_div_left _ _ (by omega), Nat.div_eq_of_lt low, Nat.zero_add, ih]
    congr 1
    apply BitVec.eq_of_toNat_eq
    rw [BitVec.toNat_ofNat, Nat.add_mod, Nat.mul_mod_right, Nat.add_zero, Nat.mod_mod, Nat.mod_eq_of_lt low]

/-! ### Words and bytes -/

@[simp] theorem word_bytes_length (w : Word) : (wordBytes w).length = 8 := le_bytes_length _ _

@[simp] theorem word_of_word_bytes (w : Word) : wordOf (wordBytes w) = w := by
  have below : w.toNat < 256 ^ 8 := w.isLt
  rw [wordOf, wordBytes, le_nat_le_bytes, Nat.mod_eq_of_lt below, BitVec.ofNat_toNat, BitVec.setWidth_eq]

theorem word_bytes_word_of {bs : List Byte} (eight : bs.length = 8) : wordBytes (wordOf bs) = bs := by
  have below : leNat bs < 2 ^ 64 := by simpa [eight] using le_nat_lt bs
  rw [wordBytes, wordOf, BitVec.toNat_ofNat, Nat.mod_eq_of_lt below]
  exact eight ▸ le_bytes_le_nat bs

/-- Byte `n` of a word. -/
theorem word_bytes_getElem (w : Word) {n : Nat} (inside : n < 8) :
    (wordBytes w)[n]? = some (w.extractLsb' (8 * n) 8) := by
  rw [wordBytes, le_bytes_getElem inside]
  congr 1
  apply BitVec.eq_of_toNat_eq
  rw [BitVec.toNat_ofNat, BitVec.extractLsb'_toNat, Nat.shiftRight_eq_div_pow, show 2 ^ (8 * n) = 256 ^ n from Nat.pow_mul 2 8 n]

theorem word_at_eq (d : Dram) (a : Nat) : d.wordAt a = wordOf ((List.range 8).map (fun n => d.byteAt (a + n))) := rfl

theorem word_at_getElem (d : Dram) (a : Nat) {n : Nat} (inside : n < 8) :
    (wordBytes (d.wordAt a))[n]? = some (d.byteAt (a + n)) := by
  rw [word_at_eq, word_bytes_word_of (by simp), List.getElem?_map, List.getElem?_range inside]
  rfl

/-- A byte of the memory is a byte of the word it stands in. -/
theorem byte_of_word (d : Dram) (a : Nat) {n : Nat} (inside : n < 8) :
    d.byteAt (a + n) = (d.wordAt a).extractLsb' (8 * n) 8 :=
  Option.some_inj.mp ((word_at_getElem d a inside).symm.trans (word_bytes_getElem _ inside))

/-- Eight bytes decide the word. -/
theorem word_at_congr {d t : Dram} {a : Nat} (same : ∀ b, a ≤ b → b < a + 8 → t.byteAt b = d.byteAt b) :
    t.wordAt a = d.wordAt a := by
  rw [word_at_eq, word_at_eq]
  congr 1
  refine List.map_congr_left fun n member => ?_
  have inside := List.mem_range.mp member
  exact same _ (by omega) (by omega)

/-! ### Storing (R146) -/

theorem store_byte_outside (d : Dram) {a b : Nat} (w : Word) (c : Byte) (outside : b < a ∨ a + 8 ≤ b) :
    (d.store a w c).byteAt b = d.byteAt b := by
  rw [dram_store_byte, if_neg (by rw [word_bytes_length]; omega)]

theorem store_code_outside (d : Dram) {a b : Nat} (aligned : a % 8 = 0) (w : Word) (c : Byte)
    (outside : b < a ∨ a + 8 ≤ b) : (d.store a w c).codeAt b = d.codeAt b := by
  rw [dram_store_code, if_neg (by omega)]

theorem store_word (d : Dram) (a : Nat) (w : Word) (c : Byte) : (d.store a w c).wordAt a = w := by
  have bytes : (List.range 8).map (fun n => (d.store a w c).byteAt (a + n)) = wordBytes w := by
    apply List.ext_getElem?
    intro n
    by_cases inside : n < 8
    · rw [List.getElem?_map, List.getElem?_range inside, Option.map_some, dram_store_byte,
        if_pos (by rw [word_bytes_length]; omega), Nat.add_sub_cancel_left, word_bytes_getElem _ inside, Option.getD_some]
    · rw [List.getElem?_eq_none (by simpa using inside), List.getElem?_eq_none (by rw [word_bytes_length]; omega)]
  rw [word_at_eq, bytes, word_of_word_bytes]

theorem store_code (d : Dram) (a : Nat) (w : Word) (c : Byte) : (d.store a w c).codeAt a = c := by
  rw [dram_store_code, if_pos rfl]

/-- Words stored leave every byte and code outside them. -/
theorem store_words_outside {d : Dram} {a b : Nat} {ws : List Word} (aligned : a % 8 = 0)
    (outside : b < a ∨ a + 8 * ws.length ≤ b) :
    (d.storeWords a ws).byteAt b = d.byteAt b ∧ (d.storeWords a ws).codeAt b = d.codeAt b := by
  induction ws generalizing d a with
  | nil => exact ⟨rfl, rfl⟩
  | cons w ws ih =>
    rw [List.length_cons] at outside
    obtain ⟨byte, code⟩ := ih (d := d.store a w (CheckCode.code w)) (a := a + 8) (by omega) (by omega)
    exact ⟨byte.trans (store_byte_outside d w _ (by omega)), code.trans (store_code_outside d aligned w _ (by omega))⟩

/-- Words stored read back with their codes. -/
theorem store_words_read_back {d : Dram} {a n : Nat} {w : Word} {ws : List Word} (aligned : a % 8 = 0)
    (listed : ws[n]? = some w) :
    (d.storeWords a ws).wordAt (a + 8 * n) = w ∧ (d.storeWords a ws).codeAt (a + 8 * n) = CheckCode.code w := by
  induction ws generalizing d a n with
  | nil => simp at listed
  | cons v ws ih =>
    cases n with
    | zero =>
      obtain rfl : v = w := by simpa using listed
      have later : ∀ b, a ≤ b → b < a + 8 → (b < a + 8 ∨ a + 8 + 8 * ws.length ≤ b) := fun b _ h => .inl h
      have aligned' : (a + 8) % 8 = 0 := by omega
      refine ⟨?_, ?_⟩
      · exact (word_at_congr fun b low high => (store_words_outside aligned' (later b low high)).1).trans
          (store_word d a v _)
      · exact (store_words_outside aligned' (later a (le_refl a) (by omega))).2.trans (store_code d a v _)
    | succ n =>
      have place : a + 8 * (n + 1) = a + 8 + 8 * n := by ring
      rw [place]
      exact ih (by omega) (by simpa using listed)

theorem store_words_frame (d : Dram) (a : Nat) (ws : List Word) :
    (d.storeWords a ws).retention = d.retention ∧ (d.storeWords a ws).readLatency = d.readLatency ∧
      (d.storeWords a ws).issued = d.issued := by
  induction ws generalizing d a with
  | nil => exact ⟨rfl, rfl, rfl⟩
  | cons w ws ih => exact ih _ _

/-- Settles O45, by induction on the words stored. -/
theorem storedWordsReadBackAlone : Obligations.StoredWordsReadBackAlone :=
  ⟨fun d a ws aligned => ⟨fun _ _ listed => store_words_read_back aligned listed,
      fun _ outside => store_words_outside aligned outside, dram_store_words_wf d a ws, store_words_frame d a ws⟩,
    fun d a _ inside => byte_of_word d a inside, fun w _ inside => word_bytes_getElem w inside⟩

/-! ### The check code (R147) -/

theorem xor_exchange (a b c : Byte) : a ^^^ (b ^^^ c) = b ^^^ (a ^^^ c) := by
  rw [← BitVec.xor_assoc, BitVec.xor_comm a b, BitVec.xor_assoc]

theorem xor_twice (a b : Byte) : a ^^^ (a ^^^ b) = b := by
  rw [← BitVec.xor_assoc, BitVec.xor_self, BitVec.zero_xor]

/-- A column selected by the sum of two bits, and by each of them. -/
theorem selected_sum (b d : Bool) (c x y : Byte) :
    (if (b ^^ d) = true then c else 0) ^^^ (x ^^^ y) =
      (if b = true then c else 0) ^^^ x ^^^ ((if d = true then c else 0) ^^^ y) := by
  cases b <;> cases d
  · simp
  · simpa using xor_exchange c x y
  · simpa using (BitVec.xor_assoc c x y).symm
  · simpa [BitVec.xor_assoc] using (xor_exchange c x (c ^^^ y) ▸ congrArg (x ^^^ ·) (xor_twice c y)).symm

theorem sum_from_xor (cs : List Byte) (v w : Word) (j : Nat) :
    CheckCode.sumFrom (v ^^^ w) j cs = CheckCode.sumFrom v j cs ^^^ CheckCode.sumFrom w j cs := by
  induction cs generalizing j with
  | nil => exact (BitVec.xor_self).symm
  | cons c cs ih =>
    simp only [CheckCode.sumFrom, ih, BitVec.getLsbD_xor]
    exact selected_sum _ _ c _ _

/-- The code is linear. -/
theorem code_xor (v w : Word) : CheckCode.code (v ^^^ w) = CheckCode.code v ^^^ CheckCode.code w :=
  sum_from_xor _ v w 0

theorem sum_from_zero (cs : List Byte) (j : Nat) : CheckCode.sumFrom 0 j cs = 0 := by
  induction cs generalizing j with
  | nil => rfl
  | cons c cs ih => simpa [CheckCode.sumFrom] using ih (j + 1)

/-- The columns summed for one bit: that of the bit, if it is among them. -/
theorem sum_from_two_pow (cs : List Byte) {n : Nat} (inside : n < 64) (j : Nat) :
    CheckCode.sumFrom (BitVec.twoPow 64 n) j cs = if j ≤ n then (cs[n - j]?).getD 0 else 0 := by
  induction cs generalizing j with
  | nil => simp [CheckCode.sumFrom]
  | cons c cs ih =>
    rw [CheckCode.sumFrom, ih, BitVec.getLsbD_twoPow]
    rcases Nat.lt_trichotomy j n with below | rfl | above
    · rw [if_neg (by simp; omega), if_pos (by omega), if_pos (by omega), show n - j = n - (j + 1) + 1 by omega]
      simp
    · rw [if_pos (by simp [inside]), if_neg (by omega), if_pos (le_refl j)]
      simp
    · rw [if_neg (by simp; omega), if_neg (by omega), if_neg (by omega)]
      rfl

/-- The 72 columns: those of the data bits, then those of the code bits. -/
def checkColumns : List Byte := CheckCode.columns ++ CheckCode.codeBitColumns

/-- The flip of one of the 72 bits in the word. -/
def wordFlip (n : Fin 72) : Word := if n.val < 64 then BitVec.twoPow 64 n.val else 0

/-- The flip of one of the 72 bits in the code. -/
def codeFlip (n : Fin 72) : Byte := if n.val < 64 then 0 else BitVec.twoPow 8 (n.val - 64)

theorem columns_length : CheckCode.columns.length = 64 := by
  have located := CheckCode.columns_locate
  simp only [CheckCode.locatesAndDetects, Bool.and_eq_true, decide_eq_true_eq] at located
  exact located.1.1.1

theorem check_columns_length : checkColumns.length = 72 := by
  rw [checkColumns, List.length_append, columns_length]
  rfl

theorem check_columns_nodup : checkColumns.Nodup := by
  have located := CheckCode.columns_locate
  simp only [CheckCode.locatesAndDetects, Bool.and_eq_true, decide_eq_true_eq] at located
  exact located.1.1.2

theorem check_columns_ne_zero {a : Byte} (member : a ∈ checkColumns) : a ≠ 0 := by
  have located := CheckCode.columns_locate
  simp only [CheckCode.locatesAndDetects, Bool.and_eq_true, List.all_eq_true, bne_iff_ne] at located
  exact located.1.2 a member

/-- Two columns that differ add up to no column. -/
theorem check_columns_sum {a b : Byte} (inA : a ∈ checkColumns) (inB : b ∈ checkColumns) (differ : a ≠ b) :
    a ^^^ b ∉ checkColumns := by
  have located := CheckCode.columns_locate
  simp only [CheckCode.locatesAndDetects, Bool.and_eq_true, List.all_eq_true, Bool.or_eq_true, beq_iff_eq,
    Bool.not_eq_true', List.contains_eq_mem, decide_eq_false_iff_not] at located
  rcases located.2 a inA b inB with zero | absent
  · exact absurd (BitVec.xor_eq_zero_iff.mp zero) differ
  · exact absent

/-- The column of one of the 72 bits. -/
def columnOfBit (n : Fin 72) : Byte := checkColumns[n.val]'(by rw [check_columns_length]; exact n.isLt)

theorem column_of_bit_mem (n : Fin 72) : columnOfBit n ∈ checkColumns := List.getElem_mem _

theorem column_of_bit_inj {i j : Fin 72} (same : columnOfBit i = columnOfBit j) : i = j :=
  Fin.ext ((List.Nodup.getElem_inj_iff check_columns_nodup).mp same)

theorem column_of_data_bit {n : Fin 72} (inside : n.val < CheckCode.columns.length) :
    columnOfBit n = CheckCode.columns[n.val] := List.getElem_append_left inside

theorem column_of_code_bit {n : Fin 72} (code : ¬ n.val < 64) :
    columnOfBit n = CheckCode.codeBitColumns[n.val - 64]'(by show n.val - 64 < 8; omega) := by
  have column := List.getElem_append_right (as := CheckCode.columns) (bs := CheckCode.codeBitColumns) (i := n.val)
    (h₂ := by rw [← checkColumns, check_columns_length]; exact n.isLt) (by rw [columns_length]; omega)
  simp only [columns_length] at column
  exact column

/-- What one flip adds to the difference of the codes is the bit's column. -/
theorem code_of_flip (n : Fin 72) : CheckCode.code (wordFlip n) ^^^ codeFlip n = columnOfBit n := by
  unfold wordFlip codeFlip
  by_cases data : n.val < 64
  · have inside : n.val < CheckCode.columns.length := by rw [columns_length]; exact data
    have noFlip (x : Byte) : x ^^^ 0 = x := BitVec.xor_zero
    rw [if_pos data, if_pos data, noFlip, CheckCode.code, CheckCode.codeWith, sum_from_two_pow _ data,
      if_pos (Nat.zero_le _), Nat.sub_zero, column_of_data_bit inside, List.getElem?_eq_getElem inside,
      Option.getD_some]
  · have codeBit : ∀ m : Fin 8, BitVec.twoPow 8 m.val = CheckCode.codeBitColumns[m.val]'m.isLt := by decide
    have place := n.isLt
    have noCode (x : Byte) : 0 ^^^ x = x := BitVec.zero_xor
    rw [if_neg data, if_neg data, CheckCode.code, CheckCode.codeWith, sum_from_zero, noCode, column_of_code_bit data]
    exact codeBit ⟨n.val - 64, by omega⟩

/-- The check by the difference of the codes. -/
theorem check_eq (w : Word) (stored : Byte) : CheckCode.check w stored =
    let difference := CheckCode.code w ^^^ stored
    if difference = 0 then (.clean, w)
    else if CheckCode.codeBitColumns.contains difference then (.corrected, w)
    else match CheckCode.columns.findIdx? (fun c => c == difference) with
      | some j => (.corrected, w ^^^ BitVec.twoPow 64 j)
      | none => (.damaged, w) := rfl

/-- A difference that is the column of a bit is put right at that bit. -/
theorem check_one_bit {w : Word} {stored : Byte} {n : Fin 72} (differs : CheckCode.code w ^^^ stored = columnOfBit n) :
    CheckCode.check w stored = (.corrected, w ^^^ wordFlip n) := by
  rw [check_eq]
  simp only [differs]
  rw [if_neg (check_columns_ne_zero (column_of_bit_mem n))]
  have distinct := List.nodup_append.mp check_columns_nodup
  by_cases data : n.val < 64
  · have inside : n.val < CheckCode.columns.length := by rw [columns_length]; exact data
    have found : CheckCode.columns.findIdx? (fun c => c == CheckCode.columns[n.val]) = some n.val := by
      rw [List.findIdx?_eq_some_iff_getElem]
      refine ⟨inside, beq_self_eq_true _, fun j below same => ?_⟩
      have := (List.Nodup.getElem_inj_iff distinct.1).mp (beq_iff_eq.mp same)
      omega
    have notCode : CheckCode.codeBitColumns.contains CheckCode.columns[n.val] = false := by
      rw [List.contains_eq_mem, decide_eq_false_iff_not]
      exact fun member => distinct.2.2 _ (List.getElem_mem _) _ member rfl
    rw [column_of_data_bit inside, notCode, found, wordFlip, if_pos data]
    rfl
  · have column : columnOfBit n ∈ CheckCode.codeBitColumns := by
      rw [column_of_code_bit data]
      exact List.getElem_mem _
    rw [if_pos (by simpa using column), wordFlip, if_neg data]
    exact congrArg (Prod.mk _) BitVec.xor_zero.symm

/-- A difference that is no column and not 0 is damage. -/
theorem check_damage {w : Word} {stored : Byte} (differs : CheckCode.code w ^^^ stored ≠ 0)
    (noColumn : CheckCode.code w ^^^ stored ∉ checkColumns) : CheckCode.check w stored = (.damaged, w) := by
  obtain ⟨noData, noCode⟩ := not_or.mp (List.mem_append.not.mp noColumn)
  have missed : CheckCode.columns.findIdx? (fun c => c == CheckCode.code w ^^^ stored) = none := by
    rw [List.findIdx?_eq_none_iff]
    exact fun c member => beq_eq_false_iff_ne.mpr fun same => noData (same ▸ member)
  rw [check_eq]
  simp only [if_neg differs, missed]
  rw [if_neg (by simpa using noCode)]

/-- Flips in a stored word change the difference of the codes by the flips' own. -/
theorem difference_of_flips (w v : Word) (c : Byte) :
    CheckCode.code (w ^^^ v) ^^^ (CheckCode.code w ^^^ c) = CheckCode.code v ^^^ c := by
  rw [code_xor, BitVec.xor_comm (CheckCode.code w), BitVec.xor_assoc, ← BitVec.xor_assoc (CheckCode.code w),
    BitVec.xor_self, BitVec.zero_xor]

/-- Settles O46: the difference of the codes is 0, one column, or the sum of two. -/
theorem checkCorrectsOneBitAndFindsTwo : Obligations.CheckCorrectsOneBitAndFindsTwo := by
  intro w i j
  refine ⟨?_, ?_, fun differ => ?_⟩
  · rw [check_eq]
    exact if_pos BitVec.xor_self
  · show CheckCode.check (w ^^^ wordFlip i) (CheckCode.code w ^^^ codeFlip i) = _
    rw [check_one_bit ((difference_of_flips w _ _).trans (code_of_flip i)), BitVec.xor_assoc, BitVec.xor_self,
      BitVec.xor_zero]
  · show CheckCode.check (w ^^^ wordFlip i ^^^ wordFlip j) (CheckCode.code w ^^^ codeFlip i ^^^ codeFlip j) = _
    have columns : columnOfBit i ≠ columnOfBit j := fun same => differ (column_of_bit_inj same)
    have difference : CheckCode.code (w ^^^ wordFlip i ^^^ wordFlip j) ^^^
        (CheckCode.code w ^^^ codeFlip i ^^^ codeFlip j) = columnOfBit i ^^^ columnOfBit j := by
      rw [BitVec.xor_assoc w, BitVec.xor_assoc (CheckCode.code w), difference_of_flips, code_xor, ← code_of_flip i,
        ← code_of_flip j]
      rw [BitVec.xor_assoc, BitVec.xor_assoc, xor_exchange (codeFlip i)]
    refine check_damage ?_ ?_
    · rw [difference]
      exact fun zero => columns (BitVec.xor_eq_zero_iff.mp zero)
    · rw [difference]
      exact check_columns_sum (column_of_bit_mem i) (column_of_bit_mem j) columns

end Sys2Proof.Safety
end

section
/-! SUPPORT. What the release and the freeing of entries do, the grants of drained leases, and proofs of the statements on
the completion of bursts and the reply of a DONE entry (chapters 1, 4 and 8). -/

namespace Sys2Proof.Safety

open Sys2Proof.Machine

/-! ### Orders worked out again (R13) -/

/-- The ORDER worked out again and the promotion of an entry that it leaves with no hold reason. -/
theorem reordered_eq (gone : List Index) (ahead : List Entry) (e : Entry) : reordered gone ahead e =
    match e.holds.order with
    | some i =>
      if gone.contains i then { e with holds := { e.holds with order := predecessorAmong ahead e } }.promote else e
    | none => e := by
  unfold reordered
  cases e.holds.order with
  | none => rfl
  | some i =>
    by_cases leaves : i ∈ gone
    · simp only [leaves, List.contains_eq_mem, decide_true, if_true]
      rcases promote_cases { e with holds := { e.holds with order := predecessorAmong ahead e } } with
        ⟨held, clear, promoted⟩ | ⟨kept, promoted⟩
      · rw [promoted]
        simp only [Holds.isEmpty, Bool.and_eq_true, Option.isNone_iff_eq_none, beq_iff_eq, Bool.not_eq_true'] at held clear
        rw [if_pos ⟨held, clear.1.1.1, clear.1.1.2, clear.1.2, clear.2⟩]
        rfl
      · rw [promoted]
        simp only [Holds.isEmpty, Bool.and_eq_true, Option.isNone_iff_eq_none, beq_iff_eq, Bool.not_eq_true'] at kept
        rw [if_neg (fun all => kept ⟨all.1, ⟨⟨all.2.1, all.2.2.1⟩, all.2.2.2.1⟩, all.2.2.2.2⟩)]
        rfl
    · simp only [leaves, List.contains_eq_mem, decide_false, if_false, Bool.false_eq_true]

theorem reorder_cons (gone : List Index) (ahead : List Entry) (e : Entry) (rest : List Entry) :
    reorder gone ahead (e :: rest) = reordered gone ahead e :: reorder gone (ahead ++ [e]) rest := by
  rw [reordered_eq]
  rfl

theorem reorder_append (gone : List Index) (ahead older newer : List Entry) :
    reorder gone ahead (older ++ newer) = reorder gone ahead older ++ reorder gone (ahead ++ older) newer := by
  induction older generalizing ahead with
  | nil => simp [reorder]
  | cons e older ih => rw [List.cons_append, reorder_cons, ih, reorder_cons, List.cons_append, List.append_assoc]; rfl

@[simp] theorem reorder_length (gone : List Index) (ahead es : List Entry) :
    (reorder gone ahead es).length = es.length := by
  rw [← List.length_map (f := Entry.index), reorder_index, List.length_map]

/-- The entry that stands at a place once the orders are worked out again. -/
theorem reorder_at (gone : List Index) (ahead behind : List Entry) (e : Entry) :
    (reorder gone [] (ahead ++ e :: behind))[ahead.length]? = some (reordered gone ahead e) := by
  rw [reorder_append, List.getElem?_append_right (by rw [reorder_length]), reorder_length, Nat.sub_self, List.nil_append,
    reorder_cons, List.getElem?_cons_zero]

/-! ### Watch sets (R19) -/

/-- What is left of a fence's watch set. -/
def watchLeft (gone : List Index) (f : Fence) : List Index := f.watch.filter (fun i => decide (i ∉ gone))

theorem unwatch_eq (m : MessageLayer) (gone : List Index) : m.unwatch gone =
    { m with
      fences := m.fences.map (fun f => { f with watch := watchLeft gone f })
      replies := m.replies ++
        (m.fences.filter (fun f => decide (f.watch ≠ [] ∧ watchLeft gone f = []))).map (fun f => .fence f.tag) } := by
  have left (f : Fence) : f.watch.filter (fun i => !gone.contains i) = watchLeft gone f := by
    refine List.filter_congr fun i _ => ?_
    rw [List.contains_eq_mem, ← decide_not]
  have complete (f : Fence) : (!f.watch.isEmpty && f.watch.all (fun i => gone.contains i)) =
      decide (f.watch ≠ [] ∧ watchLeft gone f = []) := by
    rw [Bool.eq_iff_iff]
    simp [watchLeft, List.filter_eq_nil_iff]
  simp only [MessageLayer.unwatch, left, complete]

@[simp] theorem release_layer (h : Hub) (gone : List Index) (p : Port) :
    (h.release gone).layer p = (h.layer p).unwatch gone := quad_get_map _ _ _

/-- What a release does to a port's message layer. -/
theorem unwatch_parts (m : MessageLayer) (gone : List Index) :
    (m.unwatch gone).fences = m.fences.map (fun f => { f with watch := watchLeft gone f }) ∧
      (m.unwatch gone).replies = m.replies ++
        (m.fences.filter (fun f => decide (f.watch ≠ [] ∧ watchLeft gone f = []))).map (fun f => .fence f.tag) ∧
      { m.unwatch gone with fences := m.fences, replies := m.replies } = m := by
  rw [unwatch_eq]
  exact ⟨rfl, rfl, rfl⟩

/-! ### Grants of drained leases (R84) -/

/-- What a search by a key finds. -/
theorem found_by_key {α β : Type} [DecidableEq β] {key : α → β} {k : β} {xs : List α} {x : α}
    (found : xs.find? (fun a => key a == k) = some x) : x ∈ xs ∧ key x = k :=
  ⟨List.mem_of_find?_eq_some found, by simpa using List.find?_some found⟩

theorem slot_of_mem {h : Hub} {x : LeaseSlot} (law : SlotsLaw h) (hx : x ∈ h.leases.slots) : h.slot x.id = some x := by
  unfold Hub.slot
  cases found : h.leases.slots.find? (fun s => s.id == x.id) with
  | none => exact absurd (beq_self_eq_true x.id) (List.find?_eq_none.mp found x hx)
  | some y =>
    obtain ⟨member, same⟩ := found_by_key found
    rw [slot_eq_of_id_eq law member hx same]

theorem slot_some {h : Hub} {id : LeaseId} {x : LeaseSlot} (found : h.slot id = some x) :
    x ∈ h.leases.slots ∧ x.id = id := found_by_key found

/-- The grant of the lease in a slot, in the form of R84. -/
def granted (h : Hub) (x : LeaseSlot) (l : Lease) (duration : Nat) (tag : Byte) : Hub :=
  { h with leases := { h.leases with
      slots := h.leases.slots.map (fun (y : LeaseSlot) =>
        if y.id = x.id then { x with lease := some { l with phase := .granted (h.hubTime + duration) } } else y)
      grants := min (h.leases.grants + 1) 0xFFFFFFFF } }.defer l.owner
    (.leaseGrant tag ⟨x.id, x.generation⟩ duration)

theorem grant_drained_slot {h : Hub} {x : LeaseSlot} {l : Lease} {duration deadline : Nat} {tag : Byte} (law : SlotsLaw h)
    (hx : x ∈ h.leases.slots) (held : x.lease = some l) (drained : l.phase = .granting duration deadline [] tag) :
    h.grantIfDrained x.id = granted h x l duration tag := by
  have started : h.startLease x.id duration = { h with leases := { h.leases with
      slots := h.leases.slots.map (fun (y : LeaseSlot) =>
        if y.id = x.id then { x with lease := some { l with phase := .granted (h.hubTime + duration) } } else y)
      grants := rise32 h.leases.grants } } := by
    rw [Hub.startLease, on_slot_of_mem law hx, held]
    rfl
  obtain ⟨id, generation, lease⟩ := x
  obtain ⟨owner, base, length, mode, phase⟩ := l
  cases held
  cases drained
  rw [Hub.grantIfDrained, slot_of_mem law hx]
  simp only []
  rw [started]
  rfl

theorem grant_undrained_slot {h : Hub} {x : LeaseSlot} (law : SlotsLaw h) (hx : x ∈ h.leases.slots)
    (undrained : ∀ l duration deadline tag, x.lease = some l → l.phase ≠ .granting duration deadline [] tag) :
    h.grantIfDrained x.id = h := by
  unfold Hub.grantIfDrained
  rw [slot_of_mem law hx]
  split
  · next same =>
    cases Option.some.inj same
    exact absurd rfl (undrained _ _ _ _ rfl)
  · rfl

/-! ### Freed entries -/

theorem entry_eq_some_iff {h : Hub} {i : Index} {e : Entry} (law : IndexLaw h) :
    h.entry i = some e ↔ e ∈ h.table ∧ e.index = i := by
  constructor
  · exact fun found => found_by_key found
  · rintro ⟨member, same⟩
    unfold Hub.entry
    cases found : h.table.find? (fun e => e.index == i) with
    | none => exact absurd (beq_iff_eq.mpr same) (List.find?_eq_none.mp found e member)
    | some x =>
      obtain ⟨inTable, found_same⟩ := found_by_key found
      rw [List.inj_on_of_nodup_map law inTable member (found_same.trans same.symm)]

/-- What is left of a bank record. -/
def bankWithout (gone : List Index) (k : Bank) : Bank :=
  match k.openedFor with
  | some i => if gone.contains i then { k with openedFor := none } else k
  | none => k

theorem bank_without_eq (gone : List Index) (k : Bank) :
    bankWithout gone k = { k with openedFor := k.openedFor.filter (fun i => decide (i ∉ gone)) } := by
  obtain ⟨state, row, openedFor, openMark, writeMark, closeRequested, doneAt⟩ := k
  cases openedFor with
  | none => rfl
  | some i =>
    by_cases leaves : i ∈ gone <;> simp [bankWithout, leaves, Option.filter]

/-- What is left of a slot's record. -/
def slotWithout (gone : List Index) (x : LeaseSlot) : LeaseSlot :=
  { x with lease := x.lease.map (fun l =>
      match l.phase with
      | .granting duration deadline drain tag =>
        { l with phase := .granting duration deadline (drain.filter (fun i => !gone.contains i)) tag }
      | .granted _ => l) }

theorem slot_without_granting {x : LeaseSlot} {l : Lease} {duration deadline : Nat} {drain : List Index} {tag : Byte}
    (gone : List Index) (held : x.lease = some l) (phase : l.phase = .granting duration deadline drain tag) :
    slotWithout gone x = { x with lease := some { l with
      phase := .granting duration deadline (drain.filter (fun i => decide (i ∉ gone))) tag } } := by
  have left : drain.filter (fun i => !gone.contains i) = drain.filter (fun i => decide (i ∉ gone)) :=
    List.filter_congr fun i _ => by rw [List.contains_eq_mem, ← decide_not]
  simp only [slotWithout, held, Option.map_some, phase, left]

theorem slot_without_granted {x : LeaseSlot} {l : Lease} {expiry : Nat} (gone : List Index) (held : x.lease = some l)
    (phase : l.phase = .granted expiry) : slotWithout gone x = x := by
  obtain ⟨id, generation, lease⟩ := x
  cases held
  simp only [slotWithout, Option.map_some, phase]

theorem slot_without_free {x : LeaseSlot} (gone : List Index) (free : x.lease = none) : slotWithout gone x = x := by
  obtain ⟨id, generation, lease⟩ := x
  cases free
  rfl

/-- Entries leave, and then what names or watches them is released. -/
theorem remove_entries_eq (h : Hub) (gone : List Index) : h.removeEntries gone = Hub.release
    { h with
      table := h.table.filter (fun e => decide (e.index ∉ gone))
      scheduler := { h.scheduler with banks := h.scheduler.banks.map (fun k =>
        { k with openedFor := k.openedFor.filter (fun i => decide (i ∉ gone)) }) }
      leases := { h.leases with slots := h.leases.slots.map (slotWithout gone) } } gone := by
  have left (es : List Entry) : es.filter (fun e => !gone.contains e.index) =
      es.filter (fun e => decide (e.index ∉ gone)) :=
    List.filter_congr fun e _ => by rw [List.contains_eq_mem, ← decide_not]
  have banks : h.scheduler.banks.map (bankWithout gone) = h.scheduler.banks.map (fun k =>
      { k with openedFor := k.openedFor.filter (fun i => decide (i ∉ gone)) }) :=
    List.map_congr_left fun k _ => bank_without_eq gone k
  rw [← left, ← banks]
  rfl

/-! ### The reply of a DONE entry (R16, R17) -/

theorem entry_reply_eq (e : Entry) : e.reply = ⟨e.tag, match e.status with
      | .ok => Status.ok
      | .corrected => .corrected
      | .damaged => .damaged, e.flagged, match e.kind with
      | .read => e.buffer.flatMap wordBytes
      | .write => []⟩ := by
  unfold Entry.reply
  cases e.kind <;> cases e.status <;> rfl

theorem on_messages_on_messages (h : Hub) (p : Port) (f g : MessageLayer → MessageLayer) :
    (h.onMessages p f).onMessages p g = h.onMessages p (fun m => g (f m)) := by
  rw [Hub.onMessages, Hub.onMessages, quad_upd_upd]
  rfl

/-- Settles O23: the reply's place, the freeing in its two parts, and the grant of one slot. -/
theorem placedEntryReplyFreesItsEntry : Obligations.PlacedEntryReplyFreesItsEntry := by
  refine ⟨fun s p tag i rest e running pending room found => ?_, fun h gone law => ?_,
    fun h i e law => entry_eq_some_iff law, fun h gone => ?_, fun h x law hx => ⟨?_, ?_⟩⟩
  · have reply : s.hub.replyOf (.entry tag i) = some e.reply := by rw [Hub.replyOf, found, Option.map_some]
    rw [exec_place_reply_head running pending room reply, entry_reply_eq]
    simp only [Hub.placed, placedOut, on_messages_on_messages]
    rfl
  · have ids : (h.removeEntries gone).leases.slots.map LeaseSlot.id = List.finRange 16 := by
      rw [remove_entries_eq, Hub.release_leases, List.map_map]
      exact law
    rw [Hub.freeEntries, Hub.grantDrained, ids]
  · rw [remove_entries_eq]
    refine ⟨?_, fun ahead e behind split => ?_, List.length_map _, fun b k known => ?_, List.length_map _,
      fun n x known => ⟨fun l duration deadline drain tag held phase => ?_, fun l expiry held phase => ?_, fun free => ?_⟩,
      fun p => ?_, rfl⟩
    · exact reorder_length _ _ _
    · rw [Hub.release_table]
      simp only [split]
      exact reorder_at gone ahead behind e
    · simp only [Hub.release_scheduler, List.getElem?_map, known, Option.map_some]
    · simp only [Hub.release_leases, List.getElem?_map, known, Option.map_some, slot_without_granting gone held phase]
    · simp only [Hub.release_leases, List.getElem?_map, known, Option.map_some, slot_without_granted gone held phase]
    · simp only [Hub.release_leases, List.getElem?_map, known, Option.map_some, slot_without_free gone free]
    · rw [release_layer]
      exact unwatch_parts _ _
  · intro l duration deadline tag held drained
    exact grant_drained_slot law hx held drained
  · exact grant_undrained_slot law hx

end Sys2Proof.Safety
end

section
/-! SUPPORT. Proofs of the statements on words read and on the completion of bursts (chapters 1, 2 and 8). -/

namespace Sys2Proof.Safety

open Sys2Proof.Machine

/-! ### Words read (R147, R149, R150) -/

theorem flip_eq {d : Dram} {a : Nat} {flips : BitVec 72} (some_flip : flips ≠ 0) : d.flip a flips =
    d.store a (d.wordAt a ^^^ flips.setWidth 64) (d.codeAt a ^^^ flips.extractLsb' 64 8) := if_neg some_flip

/-- One word read, by what its check says. -/
theorem read_word_eq (r : ReadProgress) (a : Nat) (flips : BitVec 72) : r.word a flips =
    let d := r.dram.flip a flips
    let w := CheckCode.check (d.wordAt a) (d.codeAt a)
    ⟨d, match w.1 with
      | .clean => r.check
      | .corrected => { r.check with corrected := rise32 r.check.corrected }
      | .damaged => { r.check with damaged := rise32 r.check.damaged, damage := some ⟨a, r.entry.port⟩ },
      { r.entry with
        buffer := r.entry.buffer ++ [w.2]
        status := r.entry.status.worsened w.1
        flagged := if w.1 = .clean then r.entry.flagged else r.entry.flagged + 1 }⟩ := rfl

theorem worsened_corrected (d : DataStatus) : d.worsened .corrected = if d = .damaged then .damaged else .corrected := by
  cases d <;> rfl

/-- Settles O43: the outcomes of the check, and the store that a flip is. -/
theorem readWordIsCheckedAndCounted : Obligations.ReadWordIsCheckedAndCounted := by
  refine ⟨fun r a flips => ?_, fun d a flips aligned => ?_⟩
  · rw [read_word_eq]
    refine ⟨rfl, fun quiet => by rw [quiet]; exact dram_flip_none _ _, rfl, fun clean => ?_, fun corrected => ?_,
      fun damaged => ?_⟩
    · simp only [clean, if_true, DataStatus.worsened, and_self]
    · simp only [corrected, worsened_corrected, reduceCtorEq, if_false, and_self]
    · simp only [damaged, DataStatus.worsened, reduceCtorEq, if_false, and_self]
  · by_cases quiet : flips = 0
    · subst quiet
      have whole : d.flip a 0 = d := dram_flip_none d a
      rw [whole]
      refine ⟨?_, ?_, fun b _ => ⟨rfl, rfl⟩, rfl, rfl, rfl, rfl⟩
      · rw [BitVec.ofNat_eq_ofNat, BitVec.setWidth_zero, BitVec.xor_zero]
      · rw [BitVec.ofNat_eq_ofNat, BitVec.extractLsb'_zero, BitVec.xor_zero]
    · rw [flip_eq quiet]
      exact ⟨store_word d a _ _, store_code d a _ _, fun b outside =>
        ⟨store_byte_outside d _ _ outside, store_code_outside d aligned _ _ outside⟩, rfl, rfl, rfl, rfl⟩

/-- Words read move the buffer, the status and the flagged words of the entry alone. -/
theorem read_words_entry (r : ReadProgress) (a : Nat) (flips : List (BitVec 72)) (n : Nat) :
    ∃ buffer status flagged, (r.words a flips n).entry =
      { r.entry with buffer := buffer, status := status, flagged := flagged } := by
  induction n generalizing r a flips with
  | zero => exact ⟨_, _, _, rfl⟩
  | succ n ih =>
    obtain ⟨buffer, status, flagged, same⟩ := ih (r.word a (flips.headD 0)) (a + 8) flips.tail
    exact ⟨buffer, status, flagged, same⟩

/-- The words of a burst are read one after another. -/
theorem read_words_succ (r : ReadProgress) (a : Nat) (flips : List (BitVec 72)) (n : Nat) :
    r.words a flips (n + 1) = (r.words a flips n).word (a + 8 * n) ((flips[n]?).getD 0) := by
  induction n generalizing r a flips with
  | zero => cases flips <;> rfl
  | succ n ih =>
    rw [ReadProgress.words, ih, ReadProgress.words, List.getElem?_tail,
      show a + 8 + 8 * n = a + 8 * (n + 1) by ring]

/-! ### What a burst's completion does to its entry (R15, R21–R25, R48, R67) -/

theorem answer_aborted_eq (m : MessageLayer) (tag : Byte) (detail : Nat) : m.answerAborted tag detail =
    { m with replies := if m.replies.any (fun (y : PendingReply) => y.tag == tag) then
        m.replies.map (fun (y : PendingReply) => if y.tag = tag then .aborted tag detail else y)
      else m.replies ++ [.aborted tag detail] } := by
  unfold MessageLayer.answerAborted
  simp only [beq_iff_eq]
  split <;> rfl

/-- An entry put in its place, and worked on there. -/
theorem update_entry_twice (t : List Entry) {i : Index} {f : Entry} (place : f.index = i) (g : Entry → Entry) :
    updateEntry (updateEntry t i (fun _ => f)) i g = updateEntry t i (fun _ => g f) := by
  simp only [updateEntry, List.map_map]
  refine List.map_congr_left fun z _ => ?_
  by_cases own : z.index = i <;> simp [own, place]

/-- A bank record with its write-recovery mark set. -/
def recovering (k : Bank) (t : Nat) : Bank := { k with writeMark := some t }

/-- The hub with the data lane free and the record of an entry replaced. -/
def entryPut (h : Hub) (i : Index) (y : Entry) : Hub :=
  { h with
    table := h.table.map (fun z => if z.index = i then y else z)
    scheduler := { h.scheduler with burst := none } }

/-- What becomes of an entry, with its words done, at the completion of its burst. -/
def burstOutcome (h : Hub) (i : Index) (f : Entry) : Hub :=
  match f.aborting with
  | some .answered => ((entryPut h i f).onMessages f.port (fun m =>
      { m with replies := if m.replies.any (fun (y : PendingReply) => y.tag == f.tag) then
          m.replies.map (fun (y : PendingReply) => if y.tag = f.tag then .aborted f.tag f.wordsDone else y)
        else m.replies ++ [.aborted f.tag f.wordsDone] })).freeEntries [i]
  | some .silent => ((entryPut h i f).onMessages f.port (fun m =>
      { m with tags := m.tags.filter (fun t => t != f.tag) })).freeEntries [i]
  | some .torn => (entryPut h i f).freeEntries [i]
  | none =>
    if f.words ≤ f.wordsDone then
      ((entryPut h i { f with phase := .done }).defer f.port (.entry f.tag i)).release [i]
    else if h.upkeep.items.stop = true then entryPut h i { f with phase := .queued }
    else entryPut h i f

theorem complete_burst_eq (h : Hub) (e : Entry) (words : Nat) :
    h.completeBurst e words = burstOutcome h e.index { e with wordsDone := e.wordsDone + words } := by
  have outcome (f : Entry) : (match f.aborting with
      | some k => (entryPut h f.index f).freeAborting f k
      | none =>
        if f.words ≤ f.wordsDone then (entryPut h f.index f).finishEntry f
        else if h.upkeep.items.stop then
          { entryPut h f.index f with
            table := updateEntry (entryPut h f.index f).table f.index (fun e => { e with phase := .queued }) }
        else entryPut h f.index f) = burstOutcome h f.index f := by
    have twice (g : Entry → Entry) : updateEntry (entryPut h f.index f).table f.index g =
        (entryPut h f.index (g f)).table := update_entry_twice h.table rfl g
    unfold burstOutcome
    simp only [Hub.finishEntry, twice]
    cases f.aborting with
    | some k =>
      cases k with
      | answered =>
        simp only [Hub.freeAborting, answer_aborted_eq]
      | silent =>
        simp only [Hub.freeAborting, drop_one_tag]
      | torn => rfl
    | none => rfl
  exact outcome _

/-- The hub at the end of a write burst, with its words in memory. -/
def wordsStored (h : Hub) (x : Burst) : Hub :=
  { h.reach x.doneAt with dram := h.dram.storeWords x.addr x.data }

theorem complete_read_eq {h : Hub} {flips : List (BitVec 72)} {x : Burst} {e : Entry} (flying : h.scheduler.burst = some x)
    (reads : x.kind = .read) (found : h.entry x.entry = some e) :
    h.completeRead flips =
      (let r := ReadProgress.words ⟨h.dram, h.check, e⟩ x.addr flips x.words
       some (burstOutcome { h with now := max h.now x.doneAt, dram := r.dram, check := r.check } e.index
        { r.entry with wordsDone := r.entry.wordsDone + x.words })) := by
  have index : (ReadProgress.words ⟨h.dram, h.check, e⟩ x.addr flips x.words).entry.index = e.index := by
    obtain ⟨buffer, status, flagged, same⟩ := read_words_entry ⟨h.dram, h.check, e⟩ x.addr flips x.words
    rw [same]
  simp only [Hub.completeRead, flying, reads, if_true, found, complete_burst_eq]
  rw [← index]
  rfl

theorem complete_write_eq {h : Hub} {x : Burst} {e : Entry} {k : Bank} (flying : h.scheduler.burst = some x)
    (writes : x.kind = .write) (found : h.entry x.entry = some e) (known : h.scheduler.banks[x.bank]? = some k) :
    h.completeWrite = some (burstOutcome
      { h with
        now := max h.now x.doneAt
        dram := h.dram.storeWords x.addr x.data
        scheduler := { h.scheduler with
          banks := h.scheduler.banks.set x.bank
            (recovering k (max h.now x.doneAt + h.config.committed.tWriteRecover)) } }
      e.index { e with wordsDone := e.wordsDone + x.words }) := by
  have known' : (wordsStored h x).scheduler.banks[x.bank]? = some k := known
  have written : h.completeWrite = some (((wordsStored h x).onBank x.bank (fun k =>
      recovering k (max h.now x.doneAt + h.config.committed.tWriteRecover))).completeBurst e x.words) := by
    simp only [Hub.completeWrite, flying, writes, if_true, found]
    rfl
  rw [written, complete_burst_eq, on_bank_eq known']
  rfl

/-- Settles O42: the words one by one, the outcome by the entry's aborting mark, and the release. -/
theorem readBurstCompletes : Obligations.ReadBurstCompletes := by
  refine ⟨fun s flips x e running flying reads found => ?_, fun r a flips => ⟨rfl, read_words_succ r a flips⟩,
    fun h gone => ⟨reorder_length _ _ _, fun ahead e behind split => ?_, fun p => ?_, rfl⟩⟩
  · obtain ⟨buffer, status, flagged, same⟩ := read_words_entry ⟨s.hub.dram, s.hub.check, e⟩ x.addr flips x.words
    rw [exec_col_read_complete, perform_after running (complete_read_eq flying reads found)]
    simp only [burstOutcome, same]
    rfl
  · rw [Hub.release_table, split]
    exact reorder_at gone ahead behind e
  · rw [release_layer]
    exact unwatch_parts _ _

/-- Settles O44: the words stored and the mark, and the outcome as at a read burst's completion. -/
theorem writeBurstCompletes : Obligations.WriteBurstCompletes := by
  intro s x e k running flying writes found known
  rw [exec_col_write_complete, perform_after running (complete_write_eq flying writes found known)]
  rfl

end Sys2Proof.Safety
end

section
/-! SUPPORT. Proofs of the statements on the parameter table (chapter 6). -/

namespace Sys2Proof.Safety

open Sys2Proof.Machine

/-- The values of a parameter set, in order of id from 0x01 on (R120). -/
def paramValues (c : Params) : List Nat :=
  [c.banks, c.rowBits, c.page, c.tOpen, c.tClose, c.tHoldMin, c.tWriteRecover, c.readLatency, c.tUpkeep,
    c.upkeepInterval, c.retainExit, c.settleCount, c.bringupUpkeeps, c.rowPolicy.code, c.bypassLimit, c.quota.p0,
    c.quota.p1, c.quota.p2, c.quota.p3, c.conflictAction.p0.code, c.conflictAction.p1.code, c.conflictAction.p2.code,
    c.conflictAction.p3.code]

theorem value_of_eq (c : Params) (id : Nat) : c.valueOf id = if id = 0 then none else (paramValues c)[id - 1]? := by
  by_cases listed : id < 24
  · interval_cases id <;> rfl
  · obtain ⟨n, rfl⟩ := Nat.exists_eq_add_of_le' (Nat.not_lt.mp listed)
    rfl

/-- A range table: the id, and the least and the largest value (R120). -/
def paramRanges : List (Nat × Nat × Nat) :=
  [(0x02, 12, 16), (0x04, 2, 15), (0x05, 2, 15), (0x06, 4, 63), (0x07, 1, 15), (0x08, 2, 8), (0x09, 8, 255),
    (0x0A, 64, 16383), (0x0B, 8, 1023), (0x0C, 1, 64), (0x0D, 2, 16), (0x0E, 0, 1), (0x0F, 0, 15), (0x10, 0, 32),
    (0x11, 0, 32), (0x12, 0, 32), (0x13, 0, 32), (0x14, 0, 1), (0x15, 0, 1), (0x16, 0, 1), (0x17, 0, 1)]

/-- The row of an id is the one that a search finds. -/
theorem range_row_iff (id : Nat) (bounds : Nat × Nat) :
    paramRanges.lookup id = some bounds ↔ (id, bounds) ∈ paramRanges := by
  constructor
  · intro found
    obtain ⟨older, newer, split, _⟩ := List.lookup_eq_some_iff.mp found
    simp [split]
  · intro member
    have rows : ∀ row ∈ paramRanges, paramRanges.lookup row.1 = some row.2 := by decide
    exact rows _ member

/-- The table of R120 as a search by id. -/
theorem in_range_eq (id v : Nat) : paramInRange id v =
    if id = 0x01 then v == 4 || v == 8
    else if id = 0x03 then v == 1024 || v == 2048 || v == 4096
    else (paramRanges.lookup id).any (fun bounds => decide (bounds.1 ≤ v) && decide (v ≤ bounds.2)) := by
  by_cases listed : id < 24
  · interval_cases id <;> rfl
  · have absent : paramRanges.lookup id = none := by
      rw [Option.eq_none_iff_forall_ne_some]
      intro bounds found
      have ids : ∀ row ∈ paramRanges, row.1 < 24 := by decide
      exact listed (ids _ ((range_row_iff id bounds).mp found))
    rw [if_neg (by omega), if_neg (by omega), absent]
    obtain ⟨n, rfl⟩ := Nat.exists_eq_add_of_le' (Nat.not_lt.mp listed)
    rfl

theorem in_range_iff (id v : Nat) : paramInRange id v = true ↔
    (id = 0x01 ∧ (v = 4 ∨ v = 8)) ∨ (id = 0x03 ∧ (v = 1024 ∨ v = 2048 ∨ v = 4096)) ∨
      ∃ row ∈ paramRanges, id = row.1 ∧ row.2.1 ≤ v ∧ v ≤ row.2.2 := by
  have search : (paramRanges.lookup id).any (fun bounds => decide (bounds.1 ≤ v) && decide (v ≤ bounds.2)) = true ↔
      ∃ row ∈ paramRanges, id = row.1 ∧ row.2.1 ≤ v ∧ v ≤ row.2.2 := by
    rw [Option.any_eq_true]
    simp only [range_row_iff, Bool.and_eq_true, decide_eq_true_iff]
    constructor
    · rintro ⟨bounds, member, within⟩
      exact ⟨_, member, rfl, within⟩
    · rintro ⟨⟨_, bounds⟩, member, rfl, within⟩
      exact ⟨bounds, member, within⟩
  have first : ¬ ∃ row ∈ paramRanges, 0x01 = row.1 ∧ row.2.1 ≤ v ∧ v ≤ row.2.2 := by
    rintro ⟨row, member, same, _⟩
    exact (by decide : ∀ row ∈ paramRanges, 0x01 ≠ row.1) row member same
  have third : ¬ ∃ row ∈ paramRanges, 0x03 = row.1 ∧ row.2.1 ≤ v ∧ v ≤ row.2.2 := by
    rintro ⟨row, member, same, _⟩
    exact (by decide : ∀ row ∈ paramRanges, 0x03 ≠ row.1) row member same
  rw [in_range_eq]
  split_ifs with one three
  · subst one
    simp [first]
  · subst three
    simp [third, or_assoc]
  · rw [search]
    simp [one, three]

/-- A value in range is that of a parameter of the table. -/
theorem in_range_id {id v : Nat} (inRange : paramInRange id v = true) : 1 ≤ id ∧ id < 24 := by
  by_contra outside
  have unlisted : id = 0 ∨ 24 ≤ id := by omega
  rcases unlisted with rfl | above
  · cases inRange
  · obtain ⟨n, rfl⟩ := Nat.exists_eq_add_of_le' above
    cases inRange

theorem policy_code_of {v : Nat} (two : v ≤ 1) : (rowPolicyOf v).code = v := by interval_cases v <;> rfl

theorem action_code_of {v : Nat} (two : v ≤ 1) : (conflictActionOf v).code = v := by interval_cases v <;> rfl

theorem in_range_of_flag {id v : Nat} (flag : id = 0x0E ∨ 0x14 ≤ id) (inRange : paramInRange id v = true) : v ≤ 1 := by
  obtain ⟨low, high⟩ := in_range_id inRange
  rcases flag with rfl | above
  · simpa [paramInRange] using inRange
  · interval_cases id <;> simpa [paramInRange] using inRange

/-- A value set stands at its place among the values, and no other place changes. -/
theorem with_value_values {c : Params} {id v : Nat} (inRange : paramInRange id v = true) :
    paramValues (c.withValue id v) = (paramValues c).set (id - 1) v := by
  obtain ⟨low, high⟩ := in_range_id inRange
  by_cases flag : id = 0x0E ∨ 0x14 ≤ id
  · have policy := policy_code_of (in_range_of_flag flag inRange)
    have action := action_code_of (in_range_of_flag flag inRange)
    have ids : id = 0x0E ∨ id = 0x14 ∨ id = 0x15 ∨ id = 0x16 ∨ id = 0x17 := by omega
    rcases ids with rfl | rfl | rfl | rfl | rfl <;>
      simp [paramValues, Params.withValue, Quad.set, policy, action]
  · have below : id ≤ 0x13 := by omega
    have sides : id ≤ 0x0D ∨ 0x0F ≤ id := by omega
    rcases sides with small | large
    · interval_cases id <;> rfl
    · interval_cases id <;> rfl

/-- Settles O15: a parameter set is the list of its values, which a setting changes at one place. -/
theorem stagedParameterReadsBackAlone : Obligations.StagedParameterReadsBackAlone := by
  refine ⟨fun c id v inRange => ?_, in_range_iff, fun c => ⟨fun id => ?_, ?_⟩⟩
  · obtain ⟨low, high⟩ := in_range_id inRange
    have length : (paramValues c).length = 23 := rfl
    refine ⟨?_, fun j other => ?_⟩
    · rw [value_of_eq, if_neg (by omega), with_value_values inRange, List.getElem?_set_self (by omega)]
    · rw [value_of_eq, value_of_eq, with_value_values inRange]
      by_cases zero : j = 0
      · rw [if_pos zero, if_pos zero]
      · rw [if_neg zero, if_neg zero, List.getElem?_set_ne (by omega)]
  · by_cases listed : id < 24
    · interval_cases id <;> simp [Params.valueOf, paramIds]
    · obtain ⟨n, rfl⟩ := Nat.exists_eq_add_of_le' (Nat.not_lt.mp listed)
      have ids : ∀ i ∈ paramIds, i < 24 := by decide
      exact iff_of_false (fun some_value => some_value rfl) (fun member => absurd (ids _ member) (by omega))
  · have policy : (match c.rowPolicy with
        | .keepOpen => 0
        | .closeAfter => 1) = c.rowPolicy.code := by cases c.rowPolicy <;> rfl
    have action (p : Port) : (match c.conflictAction.get p with
        | .stall => 0
        | .reject => 1) = (c.conflictAction.get p).code := by cases c.conflictAction.get p <;> rfl
    refine Eq.trans (b := (paramValues c).map some) rfl (congrArg (List.map some) ?_)
    simp only [paramValues, List.cons.injEq, true_and, and_true]
    exact ⟨policy.symm, rfl, rfl, rfl, rfl, (action 0).symm, (action 1).symm, (action 2).symm, (action 3).symm⟩

end Sys2Proof.Safety
end

section
/-! SUPPORT. The fields of the query records (chapter 9). -/

namespace Sys2Proof.Safety

open Sys2Proof.Machine

/-! ### Fields of a run of bytes -/

/-- A field that stands behind a first part of a record. -/
theorem field_behind (a b : List Byte) (offset n : Nat) : field (a ++ b) (a.length + offset) n = field b offset n := by
  rw [field, field, List.drop_append, List.drop_eq_nil_of_le (by omega), List.nil_append, Nat.add_sub_cancel_left]

/-- A field that stands within a first part of a record. -/
theorem field_within {a : List Byte} {offset n : Nat} (inside : offset + n ≤ a.length) (b : List Byte) :
    field (a ++ b) offset n = field a offset n := by
  rw [field, field, List.drop_append_of_le_length (by omega), List.take_append_of_le_length (by rw [List.length_drop]; omega)]

@[simp] theorem field_first (x : Byte) (rest : List Byte) : field (x :: rest) 0 1 = x.toNat := by
  simp [field, leNat]

@[simp] theorem field_next (x : Byte) (rest : List Byte) (offset n : Nat) :
    field (x :: rest) (offset + 1) n = field rest offset n := rfl

/-- The number written at the head of a run of bytes. -/
@[simp] theorem field_number (k v : Nat) (rest : List Byte) : field (leBytes k v ++ rest) 0 k = v % 256 ^ k := by
  rw [field_within (by rw [le_bytes_length]; omega), field, List.drop_zero, List.take_of_length_le (by rw [le_bytes_length]),
    le_nat_le_bytes]

@[simp] theorem field_number_last (k v : Nat) : field (leBytes k v) 0 k = v % 256 ^ k := by
  simpa using field_number k v []

/-- The field behind a number. -/
theorem field_past (k v : Nat) (rest : List Byte) (offset n : Nat) :
    field (leBytes k v ++ rest) (offset + k) n = field rest offset n := by
  have skipped := field_behind (leBytes k v) rest offset n
  rwa [le_bytes_length, Nat.add_comm] at skipped

@[simp] theorem field_past_two (v : Nat) (rest : List Byte) (offset n : Nat) :
    field (leBytes 2 v ++ rest) (offset + 2) n = field rest offset n := field_past 2 v rest offset n

@[simp] theorem field_past_three (v : Nat) (rest : List Byte) (offset n : Nat) :
    field (leBytes 3 v ++ rest) (offset + 3) n = field rest offset n := field_past 3 v rest offset n

@[simp] theorem field_past_four (v : Nat) (rest : List Byte) (offset n : Nat) :
    field (leBytes 4 v ++ rest) (offset + 4) n = field rest offset n := field_past 4 v rest offset n

@[simp] theorem field_byte_of (n : Nat) : (byteOf n).toNat = n % 256 := BitVec.toNat_ofNat n 8

/-- Two zero bytes are a zero field, and so are three. -/
@[simp] theorem field_two_zeros (rest : List Byte) : field (0 :: 0 :: rest) 0 2 = 0 := rfl
@[simp] theorem field_three_zeros (rest : List Byte) : field (0 :: 0 :: 0 :: rest) 0 3 = 0 := rfl

/-! ### Records one after another -/

/-- A field of one of the records that follow a first part. -/
theorem field_of_record {α : Type} {f : α → List Byte} {older newer : List α} {x : α} {offset n : Nat} (head : List Byte)
    (inside : offset + n ≤ (f x).length) :
    field (head ++ (older ++ x :: newer).flatMap f) (head.length + (older.flatMap f).length + offset) n =
      field (f x) offset n := by
  rw [Nat.add_assoc, field_behind, List.flatMap_append, field_behind, List.flatMap_cons, field_within inside]

theorem flat_map_length {α : Type} {f : α → List Byte} {size : Nat} {xs : List α} (each : ∀ x ∈ xs, (f x).length = size) :
    (xs.flatMap f).length = size * xs.length := by
  rw [List.length_flatMap, List.map_congr_left each, List.map_const', List.sum_replicate, smul_eq_mul, mul_comm]

/-- A field of the record at a position, where all have one size. -/
theorem field_of_position {α : Type} {f : α → List Byte} {size k offset n : Nat} {xs : List α} {x : α} (head : List Byte)
    (each : ∀ x ∈ xs, (f x).length = size) (listed : xs[k]? = some x) (inside : offset + n ≤ size) :
    field (head ++ xs.flatMap f) (head.length + size * k + offset) n = field (f x) offset n := by
  obtain ⟨short, rfl⟩ := List.getElem?_eq_some_iff.mp listed
  have older : ((xs.take k).flatMap f).length = size * k := by
    rw [flat_map_length (fun x member => each x (List.mem_of_mem_take member)), List.length_take,
      Nat.min_eq_left (le_of_lt short)]
  have split : xs.take k ++ xs[k] :: xs.drop (k + 1) = xs := by
    rw [← List.drop_eq_getElem_cons short, List.take_append_drop]
  have field := field_of_record (f := f) (older := xs.take k) (newer := xs.drop (k + 1)) (x := xs[k]) (offset := offset)
    (n := n) head (by rw [each _ (List.getElem_mem short)]; exact inside)
  rwa [split, older] at field

/-! ### Flags as bits -/

theorem bits_of_test (bs : List Bool) (i : Nat) : (bitsOf bs).testBit i = bs.getD i false := by
  induction bs generalizing i with
  | nil => simp [bitsOf]
  | cons b bs ih =>
    cases i with
    | zero => cases b <;> simp [bitsOf, Nat.testBit_zero, Nat.add_mul_mod_self_left]
    | succ i =>
      have half : ((if b then 1 else 0) + 2 * bitsOf bs) / 2 = bitsOf bs := by cases b <;> simp; omega
      rw [bitsOf, Nat.testBit_succ, half, ih, List.getD_cons_succ]

theorem bits_of_lt (bs : List Bool) : bitsOf bs < 2 ^ bs.length := by
  induction bs with
  | nil => exact Nat.one_pos
  | cons b bs ih =>
    rw [bitsOf, List.length_cons, pow_succ]
    split <;> omega

/-! ### The records -/

theorem hub_record_fields (h : Hub) :
    field (h.record 0 0) 1 1 = h.channel.code ∧ field (h.record 0 0) 2 1 = h.upkeep.debt % 256 ∧
      field (h.record 0 0) 3 1 = h.upkeep.level.code ∧ field (h.record 0 0) 4 1 = holderCode h.config.holder ∧
      (∀ p : Port, (field (h.record 0 0) 5 1).testBit p.val = h.rest.votes.get p) ∧
      (∀ p : Port, field (h.record 0 0) 6 1 / 4 ^ p.val % 4 = (h.link p).state.code) ∧
      field (h.record 0 0) 7 1 = h.table.length % 256 ∧
      field (h.record 0 0) 8 1 = (h.leases.slots.filter (fun x => x.lease.isSome)).length % 256 ∧
      field (h.record 0 0) 9 3 = 0 := by
  have channel : h.channel.code < 256 := by cases h.channel <;> decide
  have level : h.upkeep.level.code < 256 := by cases h.upkeep.level <;> decide
  have holder : holderCode h.config.holder < 256 := by
    cases h.config.holder with
    | none => decide
    | some p => exact lt_trans p.isLt (by decide)
  have votes : bitsOf h.rest.votes.toList < 256 := lt_trans (bits_of_lt _) (by simp [Quad.toList])
  have link (l : LinkState) : l.code < 3 := by cases l <;> decide
  have l0 := link h.links.p0.state
  have l1 := link h.links.p1.state
  have l2 := link h.links.p2.state
  have l3 := link h.links.p3.state
  have recordIs : h.record 0 0 = h.hubRecord := rfl
  rw [recordIs, Hub.hubRecord]
  simp only [field_next, field_first, field_byte_of, field_three_zeros, Nat.mod_eq_of_lt channel, Nat.mod_eq_of_lt level,
    Nat.mod_eq_of_lt holder, Nat.mod_eq_of_lt votes, bits_of_test, true_and, and_true]
  refine ⟨fun p => ?_, fun p => ?_⟩
  · fin_cases p <;> rfl
  · fin_cases p
    · show _ / 4 ^ 0 % 4 = h.links.p0.state.code
      omega
    · show _ / 4 ^ 1 % 4 = h.links.p1.state.code
      omega
    · show _ / 4 ^ 2 % 4 = h.links.p2.state.code
      omega
    · show _ / 4 ^ 3 % 4 = h.links.p3.state.code
      omega

theorem counters_record_fields (h : Hub) :
    (let counters := field (h.record 5 0);
      counters 1 1 = (if h.check.damage = none then 0 else 1) ∧
        (∀ d, h.check.damage = some d → counters 2 1 = d.port.val ∧ counters 4 4 = d.addr % 2 ^ 32) ∧
        (h.check.damage = none → counters 2 1 = 0 ∧ counters 4 4 = 0) ∧ counters 3 1 = 0 ∧
        counters 8 4 = h.scheduler.hits % 2 ^ 32 ∧ counters 12 4 = h.scheduler.misses % 2 ^ 32 ∧
        counters 16 4 = h.check.corrected % 2 ^ 32 ∧ counters 20 4 = h.check.damaged % 2 ^ 32 ∧
        counters 24 4 = h.upkeep.completed % 2 ^ 32 ∧ counters 28 4 = h.upkeep.overruns % 2 ^ 32 ∧
        counters 32 4 = h.leases.grants % 2 ^ 32 ∧ counters 36 4 = h.leases.lapses % 2 ^ 32 ∧ counters 40 4 = 0) := by
  have recordIs : h.record 5 0 = h.countersRecord := rfl
  simp only [recordIs, Hub.countersRecord]
  cases h.check.damage with
  | none =>
    simp only [List.append_assoc, List.cons_append, List.nil_append, field_next, field_first, field_byte_of, field_number,
      field_past_four, field_number_last]
    simp
  | some d =>
    have port : d.port.val % 256 = d.port.val := Nat.mod_eq_of_lt (lt_trans d.port.isLt (by decide))
    simp only [List.append_assoc, List.cons_append, List.nil_append, field_next, field_first, field_byte_of, field_number,
      field_past_four, field_number_last, port]
    simp

/-- The windows of a port with their indices. -/
def windowPairs (ws : Quad (Option Window)) : List (Nat × Option Window) :=
  [(0, ws.p0), (1, ws.p1), (2, ws.p2), (3, ws.p3)]

theorem window_pairs_split (ws : Quad (Option Window)) (w : Port) :
    windowPairs ws = (windowPairs ws).take w.val ++ (w.val, ws.get w) :: (windowPairs ws).drop (w.val + 1) := by
  fin_cases w <;> rfl

theorem window_pairs_before (ws : Quad (Option Window)) (w : Port) :
    ((windowPairs ws).take w.val).map Prod.snd = ws.toList.take w.val := by
  fin_cases w <;> rfl

theorem window_record_length (i : Nat) (r : Window) : (windowRecord i (some r)).length = 16 := by
  simp [windowRecord]

/-- The records of windows take 16 bytes for each enabled one. -/
theorem window_records_length (pairs : List (Nat × Option Window)) :
    (pairs.flatMap (fun x => windowRecord x.1 x.2)).length = 16 * ((pairs.map Prod.snd).filter Option.isSome).length := by
  induction pairs with
  | nil => rfl
  | cons x pairs ih =>
    obtain ⟨i, r⟩ := x
    rw [List.flatMap_cons, List.length_append, ih]
    cases r with
    | none => simp [windowRecord]
    | some r =>
      rw [window_record_length]
      simp only [List.map_cons, Option.isSome_some, List.filter_cons_of_pos, List.length_cons]
      ring

/-- The first 20 bytes of the PORT record. -/
def portHead (h : Hub) (n : Port) : List Byte :=
  [byteOf 1, byteOf n.val, byteOf (h.config.committed.quota.get n), byteOf (h.occupied n),
    byteOf (h.config.committed.conflictAction.get n).code, byteOf (h.layer n).fences.length,
    byteOf ((h.windows.get n).toList.filter Option.isSome).length, 0] ++
    (leBytes 4 (h.layer n).taken ++ (leBytes 4 (h.layer n).completed ++ leBytes 4 (h.layer n).refusals))

theorem port_head_length (h : Hub) (n : Port) : (portHead h n).length = 20 := by simp [portHead]

theorem port_record_eq (h : Hub) (n : Port) : h.record 1 n.val =
    portHead h n ++ (windowPairs (h.windows.get n)).flatMap (fun x => windowRecord x.1 x.2) := by
  have named : h.record 1 n.val = h.portRecord n := by
    rw [Hub.record, Fin.ofNat_val_eq_self]
  rw [named, Hub.portRecord, portHead, windowPairs]
  simp only [List.flatMap_cons, List.flatMap_nil, List.append_assoc, List.append_nil]

theorem port_record_length (h : Hub) (n : Port) :
    (h.record 1 n.val).length = 20 + 16 * ((h.windows.get n).toList.filter Option.isSome).length := by
  rw [port_record_eq, List.length_append, port_head_length, window_records_length]
  rfl

theorem port_head_fields (h : Hub) (n : Port) :
    (let port := field (h.record 1 n.val);
      port 1 1 = n.val ∧ port 2 1 = h.config.committed.quota.get n % 256 ∧
        port 3 1 = (h.table.filter (fun e => e.port == n)).length % 256 ∧
        port 4 1 = (h.config.committed.conflictAction.get n).code ∧ port 5 1 = (h.layer n).fences.length % 256 ∧
        port 6 1 = ((h.windows.get n).toList.filter Option.isSome).length ∧ port 7 1 = 0 ∧
        port 8 4 = (h.layer n).taken % 2 ^ 32 ∧ port 12 4 = (h.layer n).completed % 2 ^ 32 ∧
        port 16 4 = (h.layer n).refusals % 2 ^ 32) := by
  have number : n.val % 256 = n.val := Nat.mod_eq_of_lt (lt_trans n.isLt (by decide))
  have action (a : ConflictAction) : a.code % 256 = a.code := by cases a <;> rfl
  have enabled : ((h.windows.get n).toList.filter Option.isSome).length % 256 =
      ((h.windows.get n).toList.filter Option.isSome).length :=
    Nat.mod_eq_of_lt (lt_of_le_of_lt (List.length_filter_le _ _) (by simp [Quad.toList]))
  simp only [port_record_eq, portHead, List.append_assoc, List.cons_append, List.nil_append, field_next, field_first,
    field_byte_of, field_number, field_past_four, number, action, enabled]
  exact ⟨trivial, trivial, rfl, trivial, trivial, trivial, rfl, rfl, rfl, rfl⟩

/-- A field of the record of an enabled window. -/
theorem port_window_field {h : Hub} {n w : Port} {r : Window} (on : Enabled h n w r) {offset k : Nat}
    (inside : offset + k ≤ 16) :
    field (h.record 1 n.val) (20 + 16 * (((h.windows.get n).toList.take w.val).filter Option.isSome).length + offset) k =
      field (windowRecord w.val (some r)) offset k := by
  have place := field_of_record (f := fun x : Nat × Option Window => windowRecord x.1 x.2) (portHead h n)
    (older := (windowPairs (h.windows.get n)).take w.val) (x := (w.val, (h.windows.get n).get w))
    (newer := (windowPairs (h.windows.get n)).drop (w.val + 1)) (offset := offset) (n := k)
    (by rw [show (h.windows.get n).get w = some r from on, window_record_length]; exact inside)
  rw [← window_pairs_split, port_head_length, window_records_length, window_pairs_before] at place
  rw [port_record_eq, place, show (h.windows.get n).get w = some r from on]

theorem window_record_fields (w : Port) (r : Window) :
    (let f := field (windowRecord w.val (some r));
      f 0 1 = w.val ∧ (f 1 1).testBit 0 = r.read ∧ (f 1 1).testBit 1 = r.write ∧ f 1 1 < 4 ∧ f 2 2 = 0 ∧
        f 4 4 = r.base % 2 ^ 32 ∧ f 8 4 = r.size % 2 ^ 32 ∧ f 12 4 = r.target % 2 ^ 32) := by
  have number : w.val % 256 = w.val := Nat.mod_eq_of_lt (lt_trans w.isLt (by decide))
  have few : bitsOf [r.read, r.write] < 4 := bits_of_lt [r.read, r.write]
  have rights : bitsOf [r.read, r.write] % 256 = bitsOf [r.read, r.write] := Nat.mod_eq_of_lt (by omega)
  simp only [windowRecord, List.append_assoc, List.cons_append, List.nil_append, field_next, field_first, field_byte_of,
    field_number, field_number_last, field_past_four, number, rights, bits_of_test]
  exact ⟨trivial, rfl, rfl, few, rfl, rfl, rfl, rfl⟩

/-! #### Leases -/

theorem lease_record_length (h : Hub) {x : LeaseSlot} {l : Lease} (held : x.lease = some l) :
    (h.leaseRecord x).length = 16 := by
  rw [Hub.leaseRecord, held]
  simp

/-- Free slots add nothing to the LEASES record. -/
theorem lease_records_occupied (h : Hub) (xs : List LeaseSlot) :
    xs.flatMap h.leaseRecord = (xs.filter (fun x => x.lease.isSome)).flatMap h.leaseRecord := by
  induction xs with
  | nil => rfl
  | cons x xs ih =>
    rw [List.flatMap_cons, ih]
    cases held : x.lease with
    | none =>
      rw [List.filter_cons_of_neg (by simp [held]), Hub.leaseRecord, held]
      rfl
    | some l => rw [List.filter_cons_of_pos (by simp [held]), List.flatMap_cons]

theorem occupied_record_length (h : Hub) : ∀ x ∈ h.leases.slots.filter (fun x => x.lease.isSome),
    (h.leaseRecord x).length = 16 := by
  intro x member
  obtain ⟨l, held⟩ := Option.isSome_iff_exists.mp (List.mem_filter.mp member).2
  exact lease_record_length h held

theorem leases_record_eq (h : Hub) : h.record 2 0 =
    [byteOf 2, byteOf (h.leases.slots.filter (fun x => x.lease.isSome)).length] ++
      (h.leases.slots.filter (fun x => x.lease.isSome)).flatMap h.leaseRecord := by
  rw [← lease_records_occupied]
  rfl

theorem drain_bits_test (drain : List Index) (i : Index) : (drainBits drain).testBit i.val = drain.contains i := by
  rw [drainBits, bits_of_test, List.getD_eq_getElem?_getD, List.getElem?_map, List.getElem?_eq_getElem (by simp)]
  simp

theorem drain_bits_lt (drain : List Index) : drainBits drain < 2 ^ 32 := by
  have bits := bits_of_lt ((List.finRange 32).map (fun i => drain.contains i))
  rwa [List.length_map, List.length_finRange] at bits

theorem time_left_mod (h : Hub) (t : Nat) : h.timeLeft t % 256 ^ 2 = min (t - h.hubTime) 65535 :=
  Nat.mod_eq_of_lt (Nat.lt_of_le_of_lt (Nat.min_le_right _ _) (by decide))

theorem lease_record_fields (h : Hub) {x : LeaseSlot} {l : Lease} (held : x.lease = some l) :
    (let f := field (h.leaseRecord x);
      f 0 1 = x.id.val ∧ f 1 1 = x.generation.toNat ∧ f 2 1 = l.owner.val ∧ f 4 3 = l.base / 256 % 2 ^ 24 ∧
        f 7 3 = l.length / 256 % 2 ^ 24 ∧
        (∀ expiry, l.phase = .granted expiry →
          f 3 1 = l.mode.code + 2 ∧ f 10 2 = min (expiry - h.hubTime) 65535 ∧ f 12 4 = 0) ∧
        ∀ duration deadline drain tag, l.phase = .granting duration deadline drain tag →
          f 3 1 = l.mode.code ∧ f 10 2 = min (deadline - h.hubTime) 65535 ∧
            ∀ i : Index, (f 12 4).testBit i.val = drain.contains i) := by
  have id : x.id.val % 256 = x.id.val := Nat.mod_eq_of_lt (lt_trans x.id.isLt (by decide))
  have owner : l.owner.val % 256 = l.owner.val := Nat.mod_eq_of_lt (lt_trans l.owner.isLt (by decide))
  have mode (n : Nat) (few : n ≤ 1) : (l.mode.code + 2 * n) % 256 = l.mode.code + 2 * n :=
    Nat.mod_eq_of_lt (by cases l.mode <;> simp only [LeaseMode.code] <;> omega)
  simp only [Hub.leaseRecord, held]
  cases phase : l.phase with
  | granted expiry =>
    simp only [List.append_assoc, List.cons_append, List.nil_append, field_next, field_first, field_byte_of, field_number,
      field_number_last, field_past_two, field_past_three, id, owner, mode 1 (le_refl 1), time_left_mod, true_and,
      LeasePhase.granted.injEq, reduceCtorEq, IsEmpty.forall_iff, implies_true, and_true]
    exact ⟨rfl, rfl, by rintro _ rfl; exact ⟨rfl, rfl⟩⟩
  | granting duration deadline drain tag =>
    have bits : drainBits drain % 256 ^ 4 = drainBits drain := Nat.mod_eq_of_lt (drain_bits_lt drain)
    simp only [List.append_assoc, List.cons_append, List.nil_append, field_next, field_first, field_byte_of, field_number,
      field_number_last, field_past_two, field_past_three, id, owner, mode 0 (Nat.zero_le 1), time_left_mod, bits,
      drain_bits_test, true_and, LeasePhase.granting.injEq, reduceCtorEq, IsEmpty.forall_iff, implies_true]
    exact ⟨rfl, rfl, by rintro _ _ _ _ ⟨_, rfl, rfl, _⟩; exact ⟨rfl, rfl, fun _ => rfl⟩⟩

/-! #### Waiting requests and banks -/

theorem wait_record_length (h : Hub) (w : Waiting) : (h.waitRecord w).length = 16 := by simp [Hub.waitRecord]

theorem wait_record_fields (h : Hub) (w : Waiting) :
    (let f := field (h.waitRecord w);
      f 0 1 = w.port.val ∧ f 1 1 = w.tag.toNat ∧ f 2 1 = w.mode.code ∧ f 3 1 = 0 ∧ f 4 3 = w.base / 256 % 2 ^ 24 ∧
        f 7 3 = w.length / 256 % 2 ^ 24 ∧ f 10 2 = w.duration % 2 ^ 16 ∧
        f 12 2 = min (w.deadline - h.hubTime) 65535 ∧ f 14 2 = 0) := by
  have port : w.port.val % 256 = w.port.val := Nat.mod_eq_of_lt (lt_trans w.port.isLt (by decide))
  have mode : w.mode.code % 256 = w.mode.code := by cases w.mode <;> rfl
  simp only [Hub.waitRecord, List.append_assoc, List.cons_append, List.nil_append, field_next, field_first, field_byte_of,
    field_number, field_past_two, field_past_three, port, mode, time_left_mod]
  exact ⟨trivial, trivial, trivial, rfl, rfl, rfl, rfl, trivial, rfl⟩

theorem bank_record_length (h : Hub) (b : Nat) (k : Bank) : (h.bankRecord b k).length = 8 := by simp [Hub.bankRecord]

/-- The records of the banks, each with its number. -/
theorem bank_records_eq (h : Hub) (b : Nat) (ks : List Bank) :
    h.bankRecordsFrom b ks = (ks.zipIdx b).flatMap (fun x => h.bankRecord x.2 x.1) := by
  induction ks generalizing b with
  | nil => rfl
  | cons k ks ih => rw [Hub.bankRecordsFrom, ih, List.zipIdx_cons, List.flatMap_cons]

theorem bank_record_fields (h : Hub) (b : Nat) (k : Bank) :
    (let f := field (h.bankRecord b k);
      f 0 1 = k.state.code ∧ (f 1 1).testBit 0 = k.row.isSome ∧ (f 1 1).testBit 1 = k.closeRequested ∧
        (f 1 1).testBit 2 = (h.candidate b).isSome ∧ f 1 1 < 8 ∧ f 2 2 = k.row.getD 0 % 2 ^ 16 ∧
        f 4 1 = (h.eligible b).length % 256 ∧
        f 5 1 = (match h.candidate b with
          | some e => e.index.val
          | none => 0xFF) ∧ f 6 2 = 0) := by
  have state : k.state.code % 256 = k.state.code := by cases k.state <;> rfl
  have few : bitsOf [k.row.isSome, k.closeRequested, (h.candidate b).isSome] < 8 := bits_of_lt [_, _, _]
  have flags : bitsOf [k.row.isSome, k.closeRequested, (h.candidate b).isSome] % 256 =
      bitsOf [k.row.isSome, k.closeRequested, (h.candidate b).isSome] := Nat.mod_eq_of_lt (by omega)
  simp only [Hub.bankRecord, List.cons_append, List.nil_append, field_next, field_first, field_byte_of,
    field_number, field_past_two, state, flags, bits_of_test]
  refine ⟨trivial, rfl, rfl, rfl, few, rfl, trivial, ?_, rfl⟩
  cases h.candidate b with
  | none => rfl
  | some e => exact Nat.mod_eq_of_lt (lt_trans e.index.isLt (by decide))

/-! #### Staged pairs -/

theorem value_listed {c : Params} {id v : Nat} (listed : c.valueOf id = some v) : id ∈ paramIds := by
  have table := (stagedParameterReadsBackAlone.2.2 c).1 id
  exact table.mp (by rw [listed]; exact Option.some_ne_none v)

/-- The pair of an id, if its staged value differs (R134). -/
def stagedPair (u : ConfigUnit) (id : Nat) : Option (Nat × Nat) :=
  if u.staged.valueOf id = u.committed.valueOf id then none else (u.staged.valueOf id).map (fun v => (id, v))

theorem staged_pair_iff (u : ConfigUnit) (i id v : Nat) : stagedPair u i = some (id, v) ↔
    i = id ∧ u.staged.valueOf id = some v ∧ u.committed.valueOf id ≠ some v := by
  unfold stagedPair
  split
  · next same =>
    simp only [reduceCtorEq, false_iff]
    rintro ⟨rfl, staged, differ⟩
    exact differ (same ▸ staged)
  · next differ =>
    rw [Option.map_eq_some_iff]
    constructor
    · rintro ⟨x, staged, pair⟩
      cases pair
      exact ⟨rfl, staged, fun committed => differ (staged.trans committed.symm)⟩
    · rintro ⟨rfl, staged, _⟩
      exact ⟨v, staged, rfl⟩

theorem staged_pairs_eq (u : ConfigUnit) : u.stagedPairs = paramIds.filterMap (stagedPair u) := rfl

theorem staged_pairs_mem (u : ConfigUnit) (id v : Nat) : (id, v) ∈ u.stagedPairs ↔
    u.staged.valueOf id = some v ∧ u.committed.valueOf id ≠ some v := by
  rw [staged_pairs_eq, List.mem_filterMap]
  simp only [staged_pair_iff]
  constructor
  · rintro ⟨_, _, rfl, differs⟩
    exact differs
  · exact fun differs => ⟨id, value_listed differs.1, rfl, differs⟩

/-- The ids of the staged pairs are among the ids of the table, in its order. -/
theorem staged_pairs_sublist (u : ConfigUnit) : (u.stagedPairs.map Prod.fst).Sublist paramIds := by
  have ids : ∀ xs : List Nat, ((xs.filterMap (stagedPair u)).map Prod.fst).Sublist xs := by
    intro xs
    induction xs with
    | nil => exact List.Sublist.slnil
    | cons i xs ih =>
      cases pair : stagedPair u i with
      | none =>
        rw [List.filterMap_cons_none pair]
        exact ih.cons i
      | some x =>
        obtain ⟨id, v⟩ := x
        obtain ⟨rfl, _⟩ := (staged_pair_iff u i id v).mp pair
        rw [List.filterMap_cons_some pair, List.map_cons]
        exact ih.cons_cons i
  exact ids paramIds

theorem staged_pairs_few (u : ConfigUnit) : u.stagedPairs.length ≤ 23 := by
  rw [← List.length_map (f := Prod.fst)]
  exact (staged_pairs_sublist u).length_le

/-- The record of a staged pair. -/
def pairBytes (x : Nat × Nat) : List Byte := [byteOf x.1, 0] ++ leBytes 2 x.2

theorem pair_bytes_length (x : Nat × Nat) : (pairBytes x).length = 4 := by simp [pairBytes]

/-- A field of the record of the slot that is occupied in position `k`. -/
theorem leases_field {h : Hub} {k : Nat} {x : LeaseSlot}
    (listed : (h.leases.slots.filter (fun x => x.lease.isSome))[k]? = some x) {offset n : Nat} (inside : offset + n ≤ 16) :
    field (h.record 2 0) (2 + 16 * k + offset) n = field (h.leaseRecord x) offset n := by
  rw [leases_record_eq]
  exact field_of_position _ (occupied_record_length h) listed inside

theorem waits_record_eq (h : Hub) : h.record 3 0 =
    [byteOf 3, byteOf h.leases.waits.length] ++ h.leases.waits.flatMap h.waitRecord := rfl

theorem banks_record_eq (h : Hub) : h.record 4 0 = [byteOf 4, byteOf h.scheduler.banks.length] ++
    (h.scheduler.banks.zipIdx 0).flatMap (fun x => h.bankRecord x.2 x.1) := by
  rw [← bank_records_eq]
  rfl

theorem staged_record_eq (h : Hub) : h.record 6 0 = [byteOf 6, byteOf h.config.stagedPairs.length, 0, 0] ++
    h.config.stagedPairs.flatMap pairBytes := rfl

theorem pair_bytes_fields {u : ConfigUnit} {id v : Nat} (listed : (id, v) ∈ u.stagedPairs) :
    (let f := field (pairBytes (id, v));
      f 0 1 = id ∧ f 1 1 = 0 ∧ f 2 2 = v % 2 ^ 16) := by
  have small : id < 256 := by
    have ids : ∀ i ∈ paramIds, i < 256 := by decide
    exact ids id (value_listed ((staged_pairs_mem u id v).mp listed).1)
  simp only [pairBytes, List.cons_append, List.nil_append, field_next, field_first, field_byte_of, field_number_last,
    Nat.mod_eq_of_lt small]
  exact ⟨trivial, rfl, rfl⟩

/-- The lengths of the records; each opens with its subject code. -/
theorem record_lengths (h : Hub) (n : Port) :
    ((h.record 0 0).length = 12 ∧ (h.record 0 0).head? = some 0) ∧
      ((h.record 1 n.val).length = 20 + 16 * ((h.windows.get n).toList.filter Option.isSome).length ∧
        (h.record 1 n.val).head? = some 1) ∧
      ((h.record 2 0).length = 2 + 16 * (h.leases.slots.filter (fun x => x.lease.isSome)).length ∧
        (h.record 2 0).head? = some 2) ∧
      ((h.record 3 0).length = 2 + 16 * h.leases.waits.length ∧ (h.record 3 0).head? = some 3) ∧
      ((h.record 4 0).length = 2 + 8 * h.scheduler.banks.length ∧ (h.record 4 0).head? = some 4) ∧
      ((h.record 5 0).length = 44 ∧ (h.record 5 0).head? = some 5) ∧
      ((h.record 6 0).length = 4 + 4 * h.config.stagedPairs.length ∧ (h.record 6 0).head? = some 6) := by
  refine ⟨⟨rfl, rfl⟩, ⟨port_record_length h n, rfl⟩, ⟨?_, rfl⟩, ⟨?_, rfl⟩, ⟨?_, rfl⟩, ⟨rfl, rfl⟩, ⟨?_, rfl⟩⟩
  · rw [leases_record_eq, List.length_append, flat_map_length (occupied_record_length h)]
    rfl
  · rw [waits_record_eq, List.length_append, flat_map_length (fun w _ => wait_record_length h w)]
    rfl
  · rw [banks_record_eq, List.length_append, flat_map_length (fun x _ => bank_record_length h x.2 x.1),
      List.length_zipIdx]
    rfl
  · rw [staged_record_eq, List.length_append, flat_map_length (fun x _ => pair_bytes_length x)]
    rfl

/-- Settles O13: the lengths and the fields of each record, those of the records in a list by their position. -/
theorem queryRecordsHaveTheirSizes : Obligations.QueryRecordsHaveTheirSizes := by
  intro h n
  obtain ⟨hub, port, leases, waits, banks, counters, staged⟩ := record_lengths h n
  obtain ⟨p1, p2, p3, p4, p5, p6, p7, p8, p9, p10⟩ := port_head_fields h n
  refine ⟨hub, port, leases, waits, banks, counters, staged, hub_record_fields h,
    ⟨p1, p2, p3, p4, p5, p6, p7, p8, p9, p10, fun w r on => ?_⟩, counters_record_fields h,
    ⟨?_, fun k x l listed held => ?_⟩, ⟨?_, fun k w listed => ?_⟩, ⟨?_, fun b k listed => ?_⟩, ?_, rfl, ?_,
    staged_pairs_mem _, fun k id v listed => ?_⟩
  · have place {offset size : Nat} (inside : offset + size ≤ 16) := port_window_field on inside
    obtain ⟨w0, w1, w2, w3, w4, w5, w6, w7⟩ := window_record_fields w r
    rw [← place (by omega)] at w0 w1 w2 w3 w4 w5 w6 w7
    exact ⟨w0, w1, w2, w3, w4, w5, w6, w7⟩
  · rw [leases_record_eq]
    simp
  · have place {offset size : Nat} (inside : offset + size ≤ 16) := leases_field listed inside
    obtain ⟨l0, l1, l2, l3, l4, expires, drains⟩ := lease_record_fields h held
    rw [← place (by omega)] at l0 l1 l2 l3 l4
    refine ⟨l0, l1, l2, l3, l4, fun expiry phase => ?_, fun duration deadline drain tag phase => ?_⟩
    · obtain ⟨mode, time, bits⟩ := expires expiry phase
      exact ⟨(place (by omega)).trans mode, (place (by omega)).trans time, (place (by omega)).trans bits⟩
    · obtain ⟨mode, time, bits⟩ := drains duration deadline drain tag phase
      refine ⟨(place (by omega)).trans mode, (place (by omega)).trans time, fun i => ?_⟩
      rw [← bits i, ← place (by omega)]
  · rw [waits_record_eq]
    simp
  · have place {offset size : Nat} (inside : offset + size ≤ 16) :
        field (h.record 3 0) (2 + 16 * k + offset) size = field (h.waitRecord w) offset size :=
      field_of_position _ (fun w _ => wait_record_length h w) listed inside
    obtain ⟨f0, f1, f2, f3, f4, f5, f6, f7, f8⟩ := wait_record_fields h w
    rw [← place (by omega)] at f0 f1 f2 f3 f4 f5 f6 f7 f8
    exact ⟨f0, f1, f2, f3, f4, f5, f6, f7, f8⟩
  · rw [banks_record_eq]
    simp
  · have listed' : (h.scheduler.banks.zipIdx 0)[b]? = some (k, b) := by
      rw [List.getElem?_zipIdx, listed, Option.map_some, Nat.zero_add]
    have place {offset size : Nat} (inside : offset + size ≤ 8) :
        field (h.record 4 0) (2 + 8 * b + offset) size = field (h.bankRecord b k) offset size := by
      rw [banks_record_eq]
      exact field_of_position _ (fun x _ => bank_record_length h x.2 x.1) listed' inside
    obtain ⟨f0, f1, f2, f3, f4, f5, f6, f7, f8⟩ := bank_record_fields h b k
    rw [← place (by omega)] at f0 f1 f2 f3 f4 f5 f6 f7 f8
    exact ⟨f0, f1, f2, f3, f4, f5, f6, f7, f8⟩
  · rw [staged_record_eq]
    simp only [List.cons_append, field_next, field_first, field_byte_of]
    exact Nat.mod_eq_of_lt (lt_of_le_of_lt (staged_pairs_few _) (by decide))
  · exact List.Pairwise.sublist (staged_pairs_sublist _) (by decide)
  · have place {offset size : Nat} (inside : offset + size ≤ 4) :
        field (h.record 6 0) (4 + 4 * k + offset) size = field (pairBytes (id, v)) offset size :=
      field_of_position _ (fun x _ => pair_bytes_length x) listed inside
    obtain ⟨f0, f1, f2⟩ := pair_bytes_fields (List.mem_of_getElem? listed)
    rw [← place (by omega)] at f0 f1 f2
    exact ⟨f0, f1, f2⟩

end Sys2Proof.Safety
end

section
/-! SUPPORT. The layouts of requests, and proofs of the statements on queries and messages that are no request (chapter 9). -/

namespace Sys2Proof.Safety

open Sys2Proof.Machine

/-! ### Numbers and bytes of a layout -/

theorem byte_of_toNat (x : Byte) : byteOf x.toNat = x := BitVec.ofNat_toNat .. |>.trans (BitVec.setWidth_eq x)

theorem toNat_byte_of {n : Nat} (fits : n < 256) : (byteOf n).toNat = n :=
  (field_byte_of n).trans (Nat.mod_eq_of_lt fits)

theorem two_bytes (a b : Byte) : leBytes 2 (leNat [a, b]) = [a, b] := le_bytes_le_nat [a, b]

theorem four_bytes (a b c d : Byte) : leBytes 4 (leNat [a, b, c, d]) = [a, b, c, d] := le_bytes_le_nat [a, b, c, d]

theorem two_bytes_fit (a b : Byte) : leNat [a, b] < 2 ^ 16 := by simpa using le_nat_lt [a, b]

theorem four_bytes_fit (a b c d : Byte) : leNat [a, b, c, d] < 2 ^ 32 := by simpa using le_nat_lt [a, b, c, d]

theorem number_read {k n : Nat} (fits : n < 256 ^ k) : leNat (leBytes k n) = n := by
  rw [le_nat_le_bytes, Nat.mod_eq_of_lt fits]

/-! ### Data words and pairs -/

theorem parse_words_cons (w : Word) (rest : List Byte) : parseWords (wordBytes w ++ rest) = w :: parseWords rest :=
  congrArg (· :: parseWords rest) (word_of_word_bytes w)

theorem parse_words_of_words (ws : List Word) : parseWords (ws.flatMap wordBytes) = ws := by
  induction ws with
  | nil => rfl
  | cons w ws ih => rw [List.flatMap_cons, parse_words_cons, ih]

theorem words_of_parse_words (data : List Byte) : ∀ n, data.length = 8 * n →
    (parseWords data).flatMap wordBytes = data ∧ (parseWords data).length = n := by
  induction data using parseWords.induct with
  | case1 b0 b1 b2 b3 b4 b5 b6 b7 rest ih =>
    intro n length
    obtain ⟨n, rfl⟩ : ∃ k, n = k + 1 := ⟨n - 1, by simp only [List.length_cons] at length; omega⟩
    obtain ⟨bytes, count⟩ := ih n (by simp only [List.length_cons] at length; omega)
    have word : wordBytes (BitVec.ofNat 64 (leNat [b0, b1, b2, b3, b4, b5, b6, b7])) = [b0, b1, b2, b3, b4, b5, b6, b7] :=
      word_bytes_word_of rfl
    rw [parseWords, List.flatMap_cons, word, bytes, List.length_cons, count]
    exact ⟨rfl, rfl⟩
  | case2 data short =>
    intro n length
    match data, short with
    | [], _ =>
      obtain rfl : n = 0 := by simpa using length.symm
      exact ⟨rfl, rfl⟩
    | [_], _ | [_, _], _ | [_, _, _], _ | [_, _, _, _], _ | [_, _, _, _, _], _ | [_, _, _, _, _, _], _
    | [_, _, _, _, _, _, _], _ => simp only [List.length_cons, List.length_nil] at length; omega
    | b0 :: b1 :: b2 :: b3 :: b4 :: b5 :: b6 :: b7 :: rest, short =>
      exact absurd rfl (short b0 b1 b2 b3 b4 b5 b6 b7 rest)

/-- The bytes of a pair of a CONFIG_SET (R154). -/
def setPairBytes (x : SetPair) : List Byte := [x.id, x.reserved] ++ leBytes 2 x.value

theorem parse_pairs_of_pairs {pairs : List SetPair} (fits : ∀ x ∈ pairs, x.value < 2 ^ 16) :
    parsePairs (pairs.flatMap setPairBytes) = pairs := by
  induction pairs with
  | nil => rfl
  | cons x pairs ih =>
    have head : parsePairs (setPairBytes x ++ pairs.flatMap setPairBytes) =
        ⟨x.id, x.reserved, leNat (leBytes 2 x.value)⟩ :: parsePairs (pairs.flatMap setPairBytes) := rfl
    rw [List.flatMap_cons, head, number_read (fits x List.mem_cons_self),
      ih (fun y member => fits y (List.mem_cons_of_mem _ member))]

theorem pairs_of_parse_pairs (bytes : List Byte) : ∀ n, bytes.length = 4 * n →
    (parsePairs bytes).flatMap setPairBytes = bytes ∧ (parsePairs bytes).length = n ∧
      ∀ x ∈ parsePairs bytes, x.value < 2 ^ 16 := by
  induction bytes using parsePairs.induct with
  | case1 id reserved v0 v1 rest ih =>
    intro n length
    obtain ⟨n, rfl⟩ : ∃ k, n = k + 1 := ⟨n - 1, by simp only [List.length_cons] at length; omega⟩
    obtain ⟨same, count, values⟩ := ih n (by simp only [List.length_cons] at length; omega)
    have pair : setPairBytes ⟨id, reserved, leNat [v0, v1]⟩ = [id, reserved, v0, v1] :=
      congrArg ([id, reserved] ++ ·) (two_bytes v0 v1)
    rw [parsePairs, List.flatMap_cons, pair, same, List.length_cons, count]
    refine ⟨rfl, rfl, fun x member => ?_⟩
    rcases List.mem_cons.mp member with rfl | member
    · exact two_bytes_fit v0 v1
    · exact values x member
  | case2 bytes short =>
    intro n length
    match bytes, short with
    | [], _ =>
      obtain rfl : n = 0 := by simpa using length.symm
      exact ⟨rfl, rfl, fun x member => by cases member⟩
    | [_], _ | [_, _], _ | [_, _, _], _ => simp only [List.length_cons, List.length_nil] at length; omega
    | id :: reserved :: v0 :: v1 :: rest, short => exact absurd rfl (short id reserved v0 v1 rest)

/-! ### A request and its layout (R154) -/

/-- The layout of a request is read as that request. -/
theorem parse_request_bytes {r : Request} (fits : requestFits r) : parseRequest (requestBytes r) = some r := by
  cases r with
  | read tag words reserved addr =>
    obtain ⟨w, x, a⟩ := fits
    have parsed : parseRequest (requestBytes (.read tag words reserved addr)) =
        some (.read tag (byteOf words).toNat (byteOf reserved).toNat (leNat (leBytes 4 addr))) := rfl
    rw [parsed, toNat_byte_of w, toNat_byte_of x, number_read a]
  | write tag words reserved addr data =>
    obtain ⟨low, high, count, x, a⟩ := fits
    have parsed : parseRequest (requestBytes (.write tag words reserved addr data)) =
        if 1 ≤ (byteOf words).toNat ∧ (byteOf words).toNat ≤ 32 ∧
            (data.flatMap wordBytes).length = 8 * (byteOf words).toNat then
          some (.write tag (byteOf words).toNat (byteOf reserved).toNat (leNat (leBytes 4 addr))
            (parseWords (data.flatMap wordBytes)))
        else none := rfl
    have length : (data.flatMap wordBytes).length = 8 * words := by
      rw [flat_map_length (fun w _ => word_bytes_length w), count]
    rw [parsed, toNat_byte_of (show words < 256 by omega), if_pos ⟨low, high, length⟩, toNat_byte_of x, number_read a,
      parse_words_of_words]
  | fence tag reserved =>
    have parsed : parseRequest (requestBytes (.fence tag reserved)) = some (.fence tag (leNat (leBytes 2 reserved))) := rfl
    rw [parsed, number_read fits]
  | leaseTake tag mode flags addr length duration limit =>
    obtain ⟨a, l, d, w⟩ := fits
    have parsed : parseRequest (requestBytes (.leaseTake tag mode flags addr length duration limit)) =
        some (.leaseTake tag mode flags (leNat (leBytes 4 addr)) (leNat (leBytes 4 length)) (leNat (leBytes 2 duration))
          (leNat (leBytes 2 limit))) := rfl
    rw [parsed, number_read a, number_read l, number_read d, number_read w]
  | leaseDrop tag id generation reserved =>
    obtain ⟨i, x⟩ := fits
    have parsed : parseRequest (requestBytes (.leaseDrop tag id generation reserved)) =
        some (.leaseDrop tag (byteOf id).toNat generation (leNat (leBytes 4 reserved))) := rfl
    rw [parsed, toNat_byte_of i, number_read x]
  | leaseRenew tag id generation duration reserved =>
    obtain ⟨i, d, x⟩ := fits
    have parsed : parseRequest (requestBytes (.leaseRenew tag id generation duration reserved)) =
        some (.leaseRenew tag (byteOf id).toNat generation (leNat (leBytes 2 duration)) (leNat (leBytes 2 reserved))) :=
      rfl
    rw [parsed, toNat_byte_of i, number_read d, number_read x]
  | rest tag reserved =>
    have parsed : parseRequest (requestBytes (.rest tag reserved)) = some (.rest tag (leNat (leBytes 2 reserved))) := rfl
    rw [parsed, number_read fits]
  | wake tag reserved =>
    have parsed : parseRequest (requestBytes (.wake tag reserved)) = some (.wake tag (leNat (leBytes 2 reserved))) := rfl
    rw [parsed, number_read fits]
  | query tag subject port =>
    obtain ⟨q, n⟩ := fits
    have parsed : parseRequest (requestBytes (.query tag subject port)) =
        some (.query tag (byteOf subject).toNat (byteOf port).toNat) := rfl
    rw [parsed, toNat_byte_of q, toNat_byte_of n]
  | configSet tag reserved pairs =>
    obtain ⟨x, low, high, values⟩ := fits
    have parsed : parseRequest (requestBytes (.configSet tag reserved pairs)) =
        if (pairs.flatMap setPairBytes).length % 4 = 0 ∧ 4 ≤ (pairs.flatMap setPairBytes).length ∧
            (pairs.flatMap setPairBytes).length ≤ 64 then
          some (.configSet tag (leNat (leBytes 2 reserved)) (parsePairs (pairs.flatMap setPairBytes)))
        else none := rfl
    have length : (pairs.flatMap setPairBytes).length = 4 * pairs.length :=
      flat_map_length (fun y _ => by simp [setPairBytes])
    rw [parsed, if_pos (by omega), number_read x, parse_pairs_of_pairs values]
  | configCommit tag force reserved =>
    obtain ⟨f, x⟩ := fits
    have parsed : parseRequest (requestBytes (.configCommit tag force reserved)) =
        some (.configCommit tag (byteOf force).toNat (byteOf reserved).toNat) := rfl
    rw [parsed, toNat_byte_of f, toNat_byte_of x]
  | windowSet tag port window enable rights reserved base size target =>
    obtain ⟨p, w, e, x, b, n, t⟩ := fits
    have parsed : parseRequest (requestBytes (.windowSet tag port window enable rights reserved base size target)) =
        some (.windowSet tag (byteOf port).toNat (byteOf window).toNat (byteOf enable).toNat rights
          (leNat (leBytes 2 reserved)) (leNat (leBytes 4 base)) (leNat (leBytes 4 size)) (leNat (leBytes 4 target))) :=
      rfl
    rw [parsed, toNat_byte_of p, toNat_byte_of w, toNat_byte_of e, number_read x, number_read b, number_read n,
      number_read t]
  | handover tag target reserved =>
    obtain ⟨t, x⟩ := fits
    have parsed : parseRequest (requestBytes (.handover tag target reserved)) =
        some (.handover tag (byteOf target).toNat (byteOf reserved).toNat) := rfl
    rw [parsed, toNat_byte_of t, toNat_byte_of x]
  | claim tag reserved =>
    have parsed : parseRequest (requestBytes (.claim tag reserved)) = some (.claim tag (leNat (leBytes 2 reserved))) := rfl
    rw [parsed, number_read fits]
  | hubReset tag reserved =>
    have parsed : parseRequest (requestBytes (.hubReset tag reserved)) =
        some (.hubReset tag (leNat (leBytes 2 reserved))) := rfl
    rw [parsed, number_read fits]

/-- A kind byte is the one with its code. -/
theorem kind_eq {kind : Byte} {code : Nat} (coded : kind.toNat = code) : kind = byteOf code := by
  rw [← coded, byte_of_toNat]

/-- What is read as a request is its layout. -/
theorem request_of_parse {m : List Byte} {r : Request} (parsed : parseRequest m = some r) :
    requestFits r ∧ m = requestBytes r := by
  unfold parseRequest at parsed
  split at parsed
  · next kind tag rest =>
    split at parsed
    next w x a0 a1 a2 a3 code =>
      cases parsed
      refine ⟨⟨w.isLt, x.isLt, four_bytes_fit _ _ _ _⟩, ?_⟩
      simp only [requestBytes, byte_of_toNat, four_bytes, kind_eq code]
      rfl
    next w x a0 a1 a2 a3 data code =>
      split at parsed
      next fits =>
        obtain ⟨low, high, length⟩ := fits
        obtain ⟨words, count⟩ := words_of_parse_words data _ length
        cases parsed
        refine ⟨⟨low, high, count, x.isLt, four_bytes_fit _ _ _ _⟩, ?_⟩
        simp only [requestBytes, byte_of_toNat, four_bytes, kind_eq code, words]
        rfl
      next => cases parsed
    next x0 x1 code =>
      cases parsed
      refine ⟨two_bytes_fit _ _, ?_⟩
      simp only [requestBytes, two_bytes, kind_eq code]
      rfl
    next mode flags a0 a1 a2 a3 l0 l1 l2 l3 d0 d1 w0 w1 code =>
      cases parsed
      refine ⟨⟨four_bytes_fit _ _ _ _, four_bytes_fit _ _ _ _, two_bytes_fit _ _, two_bytes_fit _ _⟩, ?_⟩
      simp only [requestBytes, four_bytes, two_bytes, kind_eq code]
      rfl
    next id generation x0 x1 x2 x3 code =>
      cases parsed
      refine ⟨⟨id.isLt, four_bytes_fit _ _ _ _⟩, ?_⟩
      simp only [requestBytes, byte_of_toNat, four_bytes, kind_eq code]
      rfl
    next id generation d0 d1 x0 x1 code =>
      cases parsed
      refine ⟨⟨id.isLt, two_bytes_fit _ _, two_bytes_fit _ _⟩, ?_⟩
      simp only [requestBytes, byte_of_toNat, two_bytes, kind_eq code]
      rfl
    next x0 x1 code =>
      cases parsed
      refine ⟨two_bytes_fit _ _, ?_⟩
      simp only [requestBytes, two_bytes, kind_eq code]
      rfl
    next x0 x1 code =>
      cases parsed
      refine ⟨two_bytes_fit _ _, ?_⟩
      simp only [requestBytes, two_bytes, kind_eq code]
      rfl
    next subject port code =>
      cases parsed
      refine ⟨⟨subject.isLt, port.isLt⟩, ?_⟩
      simp only [requestBytes, byte_of_toNat, kind_eq code]
      rfl
    next x0 x1 pairs code =>
      split at parsed
      next fits =>
        obtain ⟨whole, low, high⟩ := fits
        obtain ⟨bytes, count, values⟩ := pairs_of_parse_pairs pairs (pairs.length / 4) (by omega)
        cases parsed
        refine ⟨⟨two_bytes_fit _ _, by omega, by omega, values⟩, ?_⟩
        have layout : requestBytes (.configSet tag (leNat [x0, x1]) (parsePairs pairs)) =
            [0x50, tag] ++ leBytes 2 (leNat [x0, x1]) ++ (parsePairs pairs).flatMap setPairBytes := rfl
        rw [layout, bytes, two_bytes, kind_eq code]
        rfl
      next => cases parsed
    next force x code =>
      cases parsed
      refine ⟨⟨force.isLt, x.isLt⟩, ?_⟩
      simp only [requestBytes, byte_of_toNat, kind_eq code]
      rfl
    next port window enable rights x0 x1 b0 b1 b2 b3 n0 n1 n2 n3 t0 t1 t2 t3 code =>
      cases parsed
      refine ⟨⟨port.isLt, window.isLt, enable.isLt, two_bytes_fit _ _, four_bytes_fit _ _ _ _, four_bytes_fit _ _ _ _,
        four_bytes_fit _ _ _ _⟩, ?_⟩
      simp only [requestBytes, byte_of_toNat, two_bytes, four_bytes, kind_eq code]
      rfl
    next target x code =>
      cases parsed
      refine ⟨⟨target.isLt, x.isLt⟩, ?_⟩
      simp only [requestBytes, byte_of_toNat, kind_eq code]
      rfl
    next x0 x1 code =>
      cases parsed
      refine ⟨two_bytes_fit _ _, ?_⟩
      simp only [requestBytes, two_bytes, kind_eq code]
      rfl
    next x0 x1 code =>
      cases parsed
      refine ⟨two_bytes_fit _ _, ?_⟩
      simp only [requestBytes, two_bytes, kind_eq code]
      rfl
    next => cases parsed
  · cases parsed

theorem parse_request_iff (m : List Byte) (r : Request) : parseRequest m = some r ↔ requestFits r ∧ m = requestBytes r := by
  refine ⟨request_of_parse, ?_⟩
  rintro ⟨fits, rfl⟩
  exact parse_request_bytes fits

end Sys2Proof.Safety
end

section
/-! SUPPORT. Takings, answers and queries (chapter 9). -/

namespace Sys2Proof.Safety

open Sys2Proof.Machine

theorem rise_eq (n : Nat) : rise32 n = min (n + 1) 0xFFFFFFFF := rfl

theorem refuses_iff (status : Status) : status.refuses = true ↔ 8 ≤ status.code := decide_eq_true_iff

/-! ### What the taking, the placing and the answering of messages leave -/

theorem after_taking_link (h : Hub) (p : Port) (rest : List (List Byte)) : (h.afterTaking p rest).link p =
    { h.link p with
      inbound := rest
      ackOwed := if (h.link p).inbound.length = 4 ∧ (h.link p).ackOwed = none then some (h.now + 1600)
        else (h.link p).ackOwed } := by
  rw [Hub.afterTaking, Hub.onMessages_link, Hub.onLink_link, if_pos rfl]
  by_cases full : (h.link p).inbound.length = 4
  · cases owed : (h.link p).ackOwed <;> simp [full, owed, Link.oweAck, ackDelay, periodsPerMicrosecond]
  · simp [full]

theorem after_taking_other_link (h : Hub) {p q : Port} (rest : List (List Byte)) (other : q ≠ p) :
    (h.afterTaking p rest).link q = h.link q := by
  rw [Hub.afterTaking, Hub.onMessages_link, Hub.onLink_link, if_neg other]

theorem place_link (h : Hub) (p q : Port) (m : OutMessage) : (h.place p m).link q =
    if q = p then { h.link p with outbound := (h.link p).outbound ++ [m] } else h.link q := Hub.onLink_link _ _ _ _

theorem answer_parts (h : Hub) (p : Port) (r : Reply) :
    (h.answer p r).link p = { h.link p with outbound := (h.link p).outbound ++ [.reply r] } ∧
      (h.answer p r).layer p = { h.layer p with
        refusals := if 8 ≤ r.status.code then min ((h.layer p).refusals + 1) 0xFFFFFFFF else (h.layer p).refusals } ∧
      (∀ q, q ≠ p → (h.answer p r).link q = h.link q ∧ (h.answer p r).layer q = h.layer q) ∧
      { h.answer p r with links := h.links, messages := h.messages } = h := by
  rw [answer_eq]
  by_cases refused : r.status.refuses = true
  · rw [if_pos refused, if_pos ((refuses_iff _).mp refused)]
    refine ⟨?_, ?_, fun q other => ⟨?_, ?_⟩, rfl⟩
    · rw [Hub.onMessages_link, place_link, if_pos rfl]
    · rw [Hub.onMessages_layer, if_pos rfl]
      rfl
    · rw [Hub.onMessages_link, place_link, if_neg other]
    · rw [Hub.onMessages_layer, if_neg other]
      rfl
  · rw [if_neg refused, if_neg (fun high => refused ((refuses_iff _).mpr high))]
    refine ⟨?_, rfl, fun q other => ⟨?_, rfl⟩, rfl⟩
    · rw [place_link, if_pos rfl]
    · rw [place_link, if_neg other]

theorem defer_layer (h : Hub) (p q : Port) (r : PendingReply) : (h.defer p r).layer q =
    if q = p then { h.layer p with replies := (h.layer p).replies ++ [r] } else h.layer q := Hub.onMessages_layer _ _ _ _

theorem add_tag_layer (h : Hub) (p q : Port) (tag : Byte) : (h.addTag p tag).layer q =
    if q = p then { h.layer p with tags := (h.layer p).tags ++ [tag] } else h.layer q := Hub.onMessages_layer _ _ _ _

/-! ### QUERY (R162) -/

theorem query_malformed_eq (subject port : Nat) :
    queryMalformed subject port = decide (6 < subject ∨ (subject = 1 ∧ 3 < port) ∨ (subject ≠ 1 ∧ port ≠ 0)) := by
  rw [Bool.eq_iff_iff]
  simp [queryMalformed, or_assoc]

/-- The checks of R162. -/
def queryTable (h : Hub) (p : Port) (tag : Byte) (subject port : Nat) : List (Bool × Status × Nat) :=
  [(decide (6 < subject ∨ (subject = 1 ∧ 3 < port) ∨ (subject ≠ 1 ∧ port ≠ 0)), .malformed, 0),
    ((h.layer p).tags.contains tag, .tagInUse, 0)]

theorem answer_query_eq (h : Hub) (p : Port) (tag : Byte) (subject port : Nat) : h.answerQuery p tag subject port =
    match firstThatHolds (queryTable h p tag subject port) with
    | some (status, detail) => h.refuse p tag status detail
    | none => h.place p (.reply ⟨tag, .ok, 0, h.record subject port⟩) := by
  simp only [queryTable, first_that_holds_cons, first_that_holds_nil, Hub.answerQuery, query_malformed_eq]
  by_cases malformed : decide (6 < subject ∨ (subject = 1 ∧ 3 < port) ∨ (subject ≠ 1 ∧ port ≠ 0)) = true
  · rw [if_pos malformed, if_pos malformed]
  · rw [if_neg malformed, if_neg malformed]
    by_cases used : h.tagInUse p tag = true
    · rw [if_pos used, if_pos (show (h.layer p).tags.contains tag = true from used)]
    · rw [if_neg used, if_neg (show ¬ (h.layer p).tags.contains tag = true from used)]
      rfl

theorem query_table_after_taking (h : Hub) (p : Port) (rest : List (List Byte)) (tag : Byte) (subject port : Nat) :
    queryTable (h.afterTaking p rest) p tag subject port = queryTable h p tag subject port := by
  simp only [queryTable, after_taking_layer, if_true]

theorem exec_query_taken {s : State} {p : Port} {m : List Byte} {rest : List (List Byte)} {tag : Byte} {subject port : Nat}
    (taking : Taking s p m rest) (parsed : parseRequest m = some (.query tag subject port)) :
    exec (.query p) s = after s ((s.hub.afterTaking p rest).answerQuery p tag subject port) :=
  (exec_query p s).trans (perform_after taking.running (by simp only [Hub.takeQuery, taking_request taking parsed]))

theorem exec_malformed_taken {s : State} {p : Port} {m : List Byte} {rest : List (List Byte)} (taking : Taking s p m rest)
    (unread : parseRequest m = none) :
    exec (.malformedMessage p) s = after s ((s.hub.afterTaking p rest).refuse p (malformedTag m) .malformed 0) :=
  (exec_malformed_message p s).trans
    (perform_after taking.running (by simp only [Hub.takeMalformed, taking_head taking, unread]))

theorem malformed_tag_short {m : List Byte} (short : m.length < 2) : malformedTag m = 0 := by
  match m, short with
  | [], _ => rfl
  | [_], _ => rfl
  | _ :: _ :: _, short => simp only [List.length_cons] at short; omega

/-- Settles O12: the takings, answers and layouts, one by one. -/
theorem queryIsAnsweredAndNoRequestIsMalformed : Obligations.QueryIsAnsweredAndNoRequestIsMalformed := by
  refine ⟨fun h p rest => ⟨after_taking_link h p rest, ?_, fun q other => ⟨after_taking_other_link h rest other, ?_⟩, rfl⟩,
    fun s p m rest tag subject port taking => ⟨fun parsed => ?_, fun unread => exec_malformed_taken taking unread⟩,
    fun h p m => ⟨?_, fun q other => ?_, rfl⟩, answer_parts,
    fun h p tag status detail r => ⟨rfl, rfl, ⟨?_, fun q other => ?_, rfl⟩, ⟨?_, fun q other => ?_, rfl⟩⟩,
    fun h p q f g => ⟨Hub.onLink_link _ _ _ _, rfl, Hub.onMessages_layer _ _ _ _, rfl⟩, rise_eq, parse_request_iff,
    fun m => ⟨malformed_tag_short, fun kind tag rest spelled => by rw [spelled]; rfl⟩, fun r => rfl, fun k n => rfl, rfl,
    rfl, rfl⟩
  · rw [after_taking_layer, if_pos rfl, rise_eq]
  · rw [after_taking_layer, if_neg other]
  · rw [exec_query_taken taking parsed, answer_query_eq, query_table_after_taking]
    exact ⟨fun status detail held => by rw [show firstThatHolds (queryTable s.hub p tag subject port) = _ from held],
      fun passed => by rw [show firstThatHolds (queryTable s.hub p tag subject port) = _ from passed]⟩
  · rw [place_link, if_pos rfl]
  · rw [place_link, if_neg other]
  · rw [defer_layer, if_pos rfl]
  · rw [defer_layer, if_neg other]
  · rw [add_tag_layer, if_pos rfl]
  · rw [add_tag_layer, if_neg other]

end Sys2Proof.Safety
end

section
/-! SUPPORT. Lease requests: the checks of LEASE_TAKE, the placing of a request in a slot and the wait-list scan (chapter 4). -/

namespace Sys2Proof.Safety

open Sys2Proof.Machine

/-! ### Slots and what stands in the way of a request (R75, R76, R79) -/

/-- The slots stand in rising order of id. -/
theorem slots_sorted {h : Hub} (law : SlotsLaw h) : h.leases.slots.Pairwise (fun x y => x.id < y.id) := by
  have sorted : (h.leases.slots.map LeaseSlot.id).Pairwise (· < ·) := by
    rw [show h.leases.slots.map LeaseSlot.id = List.finRange 16 from law]
    decide
  exact List.pairwise_map.mp sorted

theorem free_slot_none_iff (h : Hub) : h.freeSlot = none ↔ ∀ x ∈ h.leases.slots, x.lease ≠ none := by
  rw [Hub.freeSlot, Option.map_eq_none_iff, List.find?_eq_none]
  simp

theorem free_slot_some {h : Hub} {id : LeaseId} (found : h.freeSlot = some id) :
    ∃ x ∈ h.leases.slots, x.id = id ∧ x.lease = none ∧
      ∀ y ∈ h.leases.slots, y.lease = none → SlotsLaw h → x.id ≤ y.id := by
  obtain ⟨x, search, rfl⟩ := Option.map_eq_some_iff.mp found
  have free : x.lease = none := by simpa using List.find?_some search
  refine ⟨x, List.mem_of_find?_eq_some search, rfl, free, fun y hy yfree law => ?_⟩
  obtain ⟨_, older, newer, split, taken⟩ := List.find?_eq_some_iff_append.mp search
  have sorted := slots_sorted law
  rw [split] at sorted hy
  rcases List.mem_append.mp hy with before | after
  · exact absurd (taken y before) (by simp [yfree])
  · rcases List.mem_cons.mp after with rfl | behind
    · exact le_refl _
    · exact le_of_lt ((List.pairwise_cons.mp (List.pairwise_append.mp sorted).2.1).1 y behind)

/-- The lowest free slot is found. -/
theorem free_slot_lowest {h : Hub} {x : LeaseSlot} (law : SlotsLaw h) (hx : x ∈ h.leases.slots) (free : x.lease = none)
    (lowest : ∀ y ∈ h.leases.slots, y.lease = none → x.id ≤ y.id) : h.freeSlot = some x.id := by
  cases found : h.freeSlot with
  | none => exact absurd free ((free_slot_none_iff h).mp found x hx)
  | some id =>
    obtain ⟨y, hy, rfl, yfree, first⟩ := free_slot_some found
    rw [le_antisymm (lowest y hy yfree) (first x hx free law)]

theorem all_taken_iff (h : Hub) :
    h.leases.slots.all (fun s => s.lease.isSome) = true ↔ ∀ x ∈ h.leases.slots, x.lease ≠ none := by
  simp [Option.isSome_iff_ne_none]

theorem blocked_eq (h : Hub) (w : Waiting) : h.blocked w = blockedTake h w.port w.mode w.base w.length := by
  have taken : h.freeSlot.isNone = h.leases.slots.all (fun s => s.lease.isSome) := by
    rw [Bool.eq_iff_iff, Option.isNone_iff_eq_none, free_slot_none_iff, all_taken_iff]
  rw [Hub.blocked, Hub.conflictingLeases, ids_where_empty, Bool.not_not, taken]
  rfl

/-- Each ground on which a request is blocked. -/
theorem blocked_take_iff (h : Hub) (p : Port) (mode : LeaseMode) (base length : Nat) :
    blockedTake h p mode base length = true ↔
      someLease h (fun l => l.conflictsWithRequest p mode base length) = true ∨
        (∀ x ∈ h.leases.slots, x.lease ≠ none) ∨ overlapsWaiting h.leases.waits p base length = true := by
  rw [blockedTake, Bool.or_eq_true, Bool.or_eq_true, all_taken_iff, or_assoc]
  rfl

/-- The lowest id of a lease that meets a condition, where one does. -/
theorem ids_where_first (h : Hub) (c : Lease → Bool) :
    (h.leases.idsWhere c).head?.map Fin.val = if someLease h c = true then some (firstId h c) else none := by
  have some_iff := ids_where_empty h c
  unfold firstId
  cases ids : h.leases.idsWhere c with
  | nil =>
    rw [ids, List.isEmpty_nil] at some_iff
    rw [if_neg (by simpa using some_iff)]
    rfl
  | cons id rest =>
    rw [ids, List.isEmpty_cons] at some_iff
    rw [if_pos (by simpa using some_iff.symm)]
    rfl

/-- Where some waiting request meets a condition, its first position is named. -/
theorem wait_position_eq (h : Hub) (c : Waiting → Bool) :
    (waitPosition c h.leases.waits).map (fun k => 16 + k) =
      if h.leases.waits.any c = true then some (firstWait h c) else none := by
  unfold waitPosition firstWait
  cases found : h.leases.waits.findIdx? c with
  | none =>
    have missed : ∀ w ∈ h.leases.waits, c w = false := List.findIdx?_eq_none_iff.mp found
    rw [if_neg (by simpa using missed)]
    rfl
  | some k =>
    obtain ⟨inside, meets, _⟩ := List.findIdx?_eq_some_iff_getElem.mp found
    rw [if_pos (List.any_eq_true.mpr ⟨_, List.getElem_mem inside, meets⟩)]
    rfl

/-- A lease of the request's own port that overlaps it. -/
def ownLease (w : Waiting) (l : Lease) : Bool := l.owner == w.port && rangesOverlap l.base l.length w.base w.length

/-- A waiting request of the request's own port that overlaps it. -/
def ownWaiting (w v : Waiting) : Bool := v.port == w.port && rangesOverlap v.base v.length w.base w.length

/-- A waiting request of another port that overlaps a request. -/
def otherWaiting (w v : Waiting) : Bool := v.port != w.port && rangesOverlap v.base v.length w.base w.length

theorem own_overlap_eq (h : Hub) (w : Waiting) : h.ownOverlap w.port w.base w.length =
    if someLease h (ownLease w) = true then some (firstId h (ownLease w))
    else if h.leases.waits.any (ownWaiting w) = true then some (firstWait h (ownWaiting w))
    else none := by
  have ids := ids_where_first h (ownLease w)
  have position := wait_position_eq h (ownWaiting w)
  have search : h.ownOverlap w.port w.base w.length =
      match h.leases.idsWhere (ownLease w) with
      | id :: _ => some id.val
      | [] => (waitPosition (ownWaiting w) h.leases.waits).map (fun k => 16 + k) := rfl
  rw [search, ← position]
  cases found : h.leases.idsWhere (ownLease w) with
  | nil =>
    rw [found] at ids
    rw [if_neg (fun some_own => by rw [if_pos some_own] at ids; cases ids)]
  | cons id rest =>
    rw [found] at ids
    by_cases some_own : someLease h (ownLease w) = true
    · rw [if_pos some_own] at ids ⊢
      exact ids
    · rw [if_neg some_own] at ids
      cases ids

/-- The detail of CONFLICT for a request that is blocked although a slot is free. -/
theorem conflict_detail_eq {h : Hub} {w : Waiting} (blocked : blockedTake h w.port w.mode w.base w.length = true)
    (free : ¬ ∀ x ∈ h.leases.slots, x.lease ≠ none) : h.conflictDetail w =
      if someLease h (fun l => l.conflictsWithRequest w.port w.mode w.base w.length) = true then
        firstId h (fun l => l.conflictsWithRequest w.port w.mode w.base w.length)
      else firstWait h (otherWaiting w) := by
  have ids := ids_where_first h (fun l => l.conflictsWithRequest w.port w.mode w.base w.length)
  have position := wait_position_eq h (otherWaiting w)
  have search : h.conflictDetail w =
      match h.leases.idsWhere (fun l => l.conflictsWithRequest w.port w.mode w.base w.length) with
      | id :: _ => id.val
      | [] => match waitPosition (otherWaiting w) h.leases.waits with
        | some k => 16 + k
        | none => 0 := rfl
  rw [search]
  by_cases conflict : someLease h (fun l => l.conflictsWithRequest w.port w.mode w.base w.length) = true
  · rw [if_pos conflict] at ids ⊢
    cases found : h.leases.idsWhere (fun l => l.conflictsWithRequest w.port w.mode w.base w.length) with
    | nil =>
      rw [found] at ids
      cases ids
    | cons id rest =>
      rw [found] at ids
      exact Option.some_inj.mp ids
  · rw [if_neg conflict] at ids ⊢
    have overlaps : h.leases.waits.any (otherWaiting w) = true := by
      rcases (blocked_take_iff h _ _ _ _).mp blocked with found | taken | found
      · exact absurd found conflict
      · exact absurd taken free
      · exact found
    rw [if_pos overlaps] at position
    cases found : h.leases.idsWhere (fun l => l.conflictsWithRequest w.port w.mode w.base w.length) with
    | cons id rest =>
      rw [found] at ids
      cases ids
    | nil =>
      obtain ⟨k, at_, place⟩ := Option.map_eq_some_iff.mp position
      simp only [at_]
      exact place

/-! ### The checks of R79 -/

/-- What becomes of a request once its window is found. -/
def leaseOutcome (h : Hub) (w : Waiting) (queue : Bool) : Hub :=
  match h.ownOverlap w.port w.base w.length with
  | some detail => h.refuse w.port w.tag .overlap detail
  | none =>
    match h.freeSlot, h.blocked w with
    | some id, false => h.placeTake id w
    | none, _ =>
      if queue = false then h.refuse w.port w.tag .leaseFull 0
      else if 8 ≤ h.leases.waits.length then h.refuse w.port w.tag .leaseFull 1
      else { h with leases := { h.leases with waits := h.leases.waits ++ [w] } }.addTag w.port w.tag
    | some _, true =>
      if queue = false then h.refuse w.port w.tag .conflict (h.conflictDetail w)
      else if 8 ≤ h.leases.waits.length then h.refuse w.port w.tag .leaseFull 1
      else { h with leases := { h.leases with waits := h.leases.waits ++ [w] } }.addTag w.port w.tag

theorem request_lease_eq (h : Hub) (p : Port) (tag mode flags : Byte) (addr length duration limit : Nat) :
    h.requestLease p tag mode flags addr length duration limit =
      if leaseTakeMalformed mode flags addr length duration limit = true then h.refuse p tag .malformed 0
      else if h.tagInUse p tag = true then h.refuse p tag .tagInUse 0
      else match translateAny (h.windows.get p) addr length with
        | none => h.refuse p tag .noWindow 0
        | some base =>
          leaseOutcome h ⟨p, tag, base, length, leaseModeOf mode, duration, h.hubTime + limit⟩ (flags.getLsbD 0) := rfl

/-- The rows of R79's table for a request whose window is found. -/
def waitTable (h : Hub) (w : Waiting) (queue : Bool) : List (Bool × Status × Nat) :=
  let conflict (l : Lease) : Bool := l.conflictsWithRequest w.port w.mode w.base w.length
  let blocked := blockedTake h w.port w.mode w.base w.length
  [(someLease h (ownLease w), .overlap, firstId h (ownLease w)),
    (h.leases.waits.any (ownWaiting w), .overlap, firstWait h (ownWaiting w)),
    (blocked && !queue && h.leases.slots.all (fun s => s.lease.isSome), .leaseFull, 0),
    (blocked && !queue && someLease h conflict, .conflict, firstId h conflict),
    (blocked && !queue, .conflict, firstWait h (otherWaiting w)),
    (blocked && queue && decide (8 ≤ h.leases.waits.length), .leaseFull, 1)]

/-- A request that no row refuses. -/
def leasePlaced (h : Hub) (w : Waiting) : Hub :=
  if blockedTake h w.port w.mode w.base w.length = true then
    { h with leases := { h.leases with waits := h.leases.waits ++ [w] } }.addTag w.port w.tag
  else match h.freeSlot with
    | some id => h.placeTake id w
    | none => h

theorem lease_outcome_eq (h : Hub) (w : Waiting) (queue : Bool) : leaseOutcome h w queue =
    match firstThatHolds (waitTable h w queue) with
    | some (status, detail) => h.refuse w.port w.tag status detail
    | none => leasePlaced h w := by
  unfold leaseOutcome
  simp only [waitTable, first_that_holds_cons, first_that_holds_nil, own_overlap_eq, blocked_eq]
  by_cases own : someLease h (ownLease w) = true
  · rw [if_pos own, if_pos own]
  by_cases waits : h.leases.waits.any (ownWaiting w) = true
  · rw [if_neg own, if_pos waits, if_neg own, if_pos waits]
  rw [if_neg own, if_neg waits, if_neg own, if_neg waits]
  cases blocked : blockedTake h w.port w.mode w.base w.length with
  | false =>
    have placed : leasePlaced h w = match h.freeSlot with
        | some id => h.placeTake id w
        | none => h := if_neg (by rw [blocked]; exact Bool.false_ne_true)
    cases found : h.freeSlot with
    | none =>
      have taken := (blocked_take_iff h w.port w.mode w.base w.length).mpr
        (.inr (.inl ((free_slot_none_iff h).mp found)))
      rw [blocked] at taken
      cases taken
    | some id => simp [placed, found]
  | true =>
    have placed : leasePlaced h w =
        { h with leases := { h.leases with waits := h.leases.waits ++ [w] } }.addTag w.port w.tag := if_pos blocked
    cases found : h.freeSlot with
    | none =>
      have taken := (all_taken_iff h).mpr ((free_slot_none_iff h).mp found)
      cases queue
      · simp [taken]
      · by_cases full : 8 ≤ h.leases.waits.length <;> simp [full, placed]
    | some id =>
      have free : ¬ ∀ x ∈ h.leases.slots, x.lease ≠ none := fun taken => by
        rw [(free_slot_none_iff h).mpr taken] at found
        cases found
      have untaken : h.leases.slots.all (fun s => s.lease.isSome) = false :=
        Bool.eq_false_iff.mpr (fun all => free ((all_taken_iff h).mp all))
      cases queue
      · simp only [conflict_detail_eq blocked free, untaken]
        by_cases conflict : someLease h (fun l => l.conflictsWithRequest w.port w.mode w.base w.length) = true <;>
          simp [conflict]
      · by_cases full : 8 ≤ h.leases.waits.length <;> simp [full, placed]

end Sys2Proof.Safety
end

section
/-! SUPPORT. Proofs of the statements on LEASE_TAKE and on the timers of leases and requests (chapter 4). -/

namespace Sys2Proof.Safety

open Sys2Proof.Machine

/-! ### LEASE_TAKE (R78–R82, R84) -/

theorem translate_any_eq {h : Hub} {p : Port} {addr length a : Nat} (apart : WindowsApart h) (pos : 0 < length)
    (phys : TranslatesTo h p addr length a) : translateAny (h.windows.get p) addr length =
      if windowServes h p (fun _ => true) addr length = true then some a else none := by
  unfold translateAny
  cases found : containingWindow (h.windows.get p) addr length with
  | some r =>
    obtain ⟨⟨w, on⟩, contains⟩ := (containing_window_eq_some_iff apart pos).1 found
    obtain ⟨low, high⟩ := window_contains_iff.1 contains
    rw [if_pos (window_serves_iff.2 ⟨w, r, on, contains, rfl⟩), Option.map_some, phys w r on low high]
    rfl
  | none =>
    rw [if_neg, Option.map_none]
    intro serves
    obtain ⟨w, r, on, contains, _⟩ := window_serves_iff.1 serves
    rw [(containing_window_eq_some_iff apart pos).2 ⟨⟨w, on⟩, contains⟩] at found
    cases found

theorem lease_take_malformed_iff (mode flags : Byte) (addr length duration limit : Nat) :
    leaseTakeMalformed mode flags addr length duration limit = true ↔
      (1 < mode.toNat ∨ 1 < flags.toNat ∨ addr % 256 ≠ 0 ∨ length = 0 ∨ length % 256 ≠ 0 ∨
        0x100000000 < addr + length ∨ duration = 0 ∨ limit = 0) := by
  simp only [leaseTakeMalformed, Bool.or_eq_true, decide_eq_true_iff, bne_iff_ne, beq_iff_eq, or_assoc] <;> rfl

theorem lease_table_split (h : Hub) (p : Port) (tag mode flags : Byte) (addr length duration limit base : Nat) :
    leaseTable h p tag mode flags addr length duration limit base =
      [(decide (1 < mode.toNat ∨ 1 < flags.toNat ∨ addr % 256 ≠ 0 ∨ length = 0 ∨ length % 256 ≠ 0 ∨
          0x100000000 < addr + length ∨ duration = 0 ∨ limit = 0), Status.malformed, 0),
        ((h.layer p).tags.contains tag, .tagInUse, 0),
        (!windowServes h p (fun _ => true) addr length, .noWindow, 0)] ++
      waitTable h ⟨p, tag, base, length, leaseModeOf mode, duration, h.hubTime + limit⟩ (flags.getLsbD 0) := rfl

theorem lease_table_after_taking (h : Hub) (p : Port) (rest : List (List Byte)) (tag mode flags : Byte)
    (addr length duration limit base : Nat) :
    leaseTable (h.afterTaking p rest) p tag mode flags addr length duration limit base =
      leaseTable h p tag mode flags addr length duration limit base := by
  simp only [leaseTable, after_taking_layer, if_true]
  rfl

/-- A LEASE_TAKE is decided by the table of R79. -/
theorem request_lease_decided {h : Hub} {p : Port} {tag mode flags : Byte} {addr length duration limit base : Nat}
    (apart : WindowsApart h) (phys : TranslatesTo h p addr length base) :
    h.requestLease p tag mode flags addr length duration limit =
      match firstThatHolds (leaseTable h p tag mode flags addr length duration limit base) with
      | some (status, detail) => h.refuse p tag status detail
      | none => leasePlaced h ⟨p, tag, base, length, leaseModeOf mode, duration, h.hubTime + limit⟩ := by
  rw [request_lease_eq, lease_table_split, List.cons_append, List.cons_append, List.cons_append, List.nil_append]
  simp only [first_that_holds_cons, decide_eq_true_iff, ← lease_take_malformed_iff]
  by_cases malformed : leaseTakeMalformed mode flags addr length duration limit = true
  · rw [if_pos malformed, if_pos malformed]
  rw [if_neg malformed, if_neg malformed]
  by_cases used : h.tagInUse p tag = true
  · rw [if_pos used, if_pos (show (h.layer p).tags.contains tag = true from used)]
  rw [if_neg used, if_neg (show ¬ (h.layer p).tags.contains tag = true from used)]
  have pos : 0 < length := by
    rw [lease_take_malformed_iff] at malformed
    omega
  rw [translate_any_eq apart pos phys]
  cases serves : windowServes h p (fun _ => true) addr length with
  | false => rfl
  | true => exact lease_outcome_eq h _ _

theorem exec_lease_take_taken {s : State} {p : Port} {m : List Byte} {rest : List (List Byte)} {tag mode flags : Byte}
    {addr length duration limit : Nat} (taking : Taking s p m rest)
    (parsed : parseRequest m = some (.leaseTake tag mode flags addr length duration limit)) :
    exec (.leaseTake p) s =
      after s ((s.hub.afterTaking p rest).requestLease p tag mode flags addr length duration limit) :=
  (exec_lease_take p s).trans
    (perform_after taking.running (by simp only [Hub.takeLeaseTake, taking_request taking parsed]))

/-- A LEASE_TAKE that is taken, decided by the table over the state before the taking. -/
theorem exec_lease_take_decided {s : State} {p : Port} {m : List Byte} {rest : List (List Byte)} {tag mode flags : Byte}
    {addr length duration limit base : Nat} (taking : Taking s p m rest)
    (parsed : parseRequest m = some (.leaseTake tag mode flags addr length duration limit))
    (apart : WindowsApart s.hub) (phys : TranslatesTo s.hub p addr length base) :
    exec (.leaseTake p) s = after s
      (match firstThatHolds (leaseTable s.hub p tag mode flags addr length duration limit base) with
        | some (status, detail) => (s.hub.afterTaking p rest).refuse p tag status detail
        | none => leasePlaced (s.hub.afterTaking p rest)
            ⟨p, tag, base, length, leaseModeOf mode, duration, s.hub.hubTime + limit⟩) := by
  rw [exec_lease_take_taken taking parsed,
    request_lease_decided (show WindowsApart (s.hub.afterTaking p rest) from apart)
      (show TranslatesTo (s.hub.afterTaking p rest) p addr length base from phys), lease_table_after_taking]
  rfl

/-- The entries that a request drains (R82). -/
def drainOf (h : Hub) (w : Waiting) : List Index := drainSet h.table w.port w.mode w.base w.length

/-- A slot's record with another lease in it. -/
def LeaseIn (h : Hub) (x : LeaseSlot) (generation : Byte) (l : Lease) : LeaseUnit :=
  { h.leases with slots := h.leases.slots.map (fun (y : LeaseSlot) =>
      if y.id = x.id then ⟨x.id, generation, some l⟩ else y) }

theorem lease_in_law {h : Hub} (law : SlotsLaw h) (x : LeaseSlot) (generation : Byte) (l : Lease) :
    (LeaseIn h x generation l).slots.map LeaseSlot.id = List.finRange 16 := by
  rw [← law, LeaseIn, List.map_map]
  refine List.map_congr_left fun y _ => ?_
  by_cases own : y.id = x.id <;> simp [own]

theorem occupy_slot_eq {h : Hub} {x : LeaseSlot} (law : SlotsLaw h) (hx : x ∈ h.leases.slots) (w : Waiting) :
    h.occupySlot x.id w = { h with leases := LeaseIn h x (x.generation + 1) ⟨w.port, w.base, w.length, w.mode,
      .granting w.duration w.deadline (drainOf h w) w.tag⟩ } := by
  rw [Hub.occupySlot, on_slot_of_mem law hx]
  rfl

theorem lease_in_mem {h : Hub} {x : LeaseSlot} (hx : x ∈ h.leases.slots) (generation : Byte) (l : Lease) :
    ⟨x.id, generation, some l⟩ ∈ (LeaseIn h x generation l).slots :=
  List.mem_map.mpr ⟨x, hx, if_pos rfl⟩

/-- A lease put in a slot twice stands there as it was put last. -/
theorem lease_in_twice (h : Hub) (x : LeaseSlot) (generation : Byte) (k l : Lease) :
    (LeaseIn h x generation k).slots.map (fun (y : LeaseSlot) =>
      if y.id = x.id then ⟨x.id, generation, some l⟩ else y) = (LeaseIn h x generation l).slots := by
  rw [LeaseIn, LeaseIn, List.map_map]
  refine List.map_congr_left fun y _ => ?_
  by_cases own : y.id = x.id <;> simp [own]

/-- A request that occupies the lowest free slot is answered at once with an empty drain set, and else outstanding. -/
theorem place_take_eq {h : Hub} {x : LeaseSlot} (law : SlotsLaw h) (hx : x ∈ h.leases.slots) (w : Waiting) :
    h.placeTake x.id w =
      if drainOf h w = [] then
        { h with leases := { LeaseIn h x (x.generation + 1)
              ⟨w.port, w.base, w.length, w.mode, .granted (h.hubTime + w.duration)⟩ with
            grants := rise32 h.leases.grants } }.answer w.port
          ⟨w.tag, .ok, 0, [BitVec.ofNat 8 x.id.val, x.generation + 1] ++ leBytes 2 w.duration⟩
      else
        { h with leases := LeaseIn h x (x.generation + 1) ⟨w.port, w.base, w.length, w.mode,
            .granting w.duration w.deadline (drainOf h w) w.tag⟩ }.addTag w.port w.tag := by
  have law' : SlotsLaw (h.occupySlot x.id w) := by
    rw [occupy_slot_eq law hx]
    exact lease_in_law law x _ _
  have hx' : (⟨x.id, x.generation + 1, some ⟨w.port, w.base, w.length, w.mode,
      .granting w.duration w.deadline (drainOf h w) w.tag⟩⟩ : LeaseSlot) ∈ (h.occupySlot x.id w).leases.slots := by
    rw [occupy_slot_eq law hx]
    exact lease_in_mem hx _ _
  have slot := slot_of_mem law' hx'
  have started : (h.occupySlot x.id w).startLease x.id w.duration =
      { h with leases := { LeaseIn h x (x.generation + 1)
            ⟨w.port, w.base, w.length, w.mode, .granted (h.hubTime + w.duration)⟩ with
          grants := rise32 h.leases.grants } } := by
    have on_slot := on_slot_of_mem law' hx' (fun s =>
      { s with lease := s.lease.map (fun l => { l with phase := .granted (h.hubTime + w.duration) }) })
    have started' : (h.occupySlot x.id w).startLease x.id w.duration =
        { h.occupySlot x.id w with leases :=
          { (h.occupySlot x.id w).leases.onSlot x.id (fun s =>
              { s with lease := s.lease.map (fun l => { l with phase := .granted (h.hubTime + w.duration) }) }) with
            grants := rise32 h.leases.grants } } := rfl
    rw [started', on_slot, occupy_slot_eq law hx]
    simp only [Option.map_some]
    rw [lease_in_twice]
    rfl
  unfold Hub.placeTake
  simp only [slot, started]
  rw [occupy_slot_eq law hx]
  rfl

/-- Settles O8: the table decides, and a request that no row refuses waits or occupies the lowest free slot. -/
theorem leaseTakeIsDecidedByTheTableOfR79 : Obligations.LeaseTakeIsDecidedByTheTableOfR79 := by
  refine ⟨fun s p m rest tag mode flags addr length duration limit base status detail taking parsed apart phys refused => ?_,
    fun s p m rest tag mode flags addr length duration limit base v r taking parsed apart on low high place law passed => ?_⟩
  · rw [exec_lease_take_decided taking parsed apart phys, refused]
  · have pos : 0 < length := by
      rw [lease_table_split, List.cons_append, first_that_holds_cons] at passed
      by_contra zero
      rw [if_pos (decide_eq_true (by omega))] at passed
      cases passed
    have phys : TranslatesTo s.hub p addr length base := place ▸ translates_through apart pos on low high
    have taken := exec_lease_take_decided taking parsed apart phys
    rw [passed] at taken
    rw [taken]
    refine ⟨fun blocked => congrArg (after s) (if_pos blocked), fun free x hx unheld lowest => ?_⟩
    have law' : SlotsLaw (s.hub.afterTaking p rest) := law
    have hx' : x ∈ (s.hub.afterTaking p rest).leases.slots := hx
    have found : (s.hub.afterTaking p rest).freeSlot = some x.id := free_slot_lowest law' hx unheld lowest
    have placed : leasePlaced (s.hub.afterTaking p rest)
        ⟨p, tag, base, length, leaseModeOf mode, duration, s.hub.hubTime + limit⟩ =
        (s.hub.afterTaking p rest).placeTake x.id
          ⟨p, tag, base, length, leaseModeOf mode, duration, s.hub.hubTime + limit⟩ := by
      refine (if_neg ?_).trans ?_
      · exact fun blocked => Bool.false_ne_true (free.symm.trans blocked)
      · rw [found]
    simp only [placed, place_take_eq law' hx']
    exact ⟨fun drains => congrArg (after s) (if_neg drains), fun drained => congrArg (after s) (if_pos drained)⟩

/-! ### The timers (R74, R86, R93) and the scan (R89) -/

theorem conflicts_with_request_iff (l : Lease) (p : Port) (mode : LeaseMode) (base length : Nat) :
    l.conflictsWithRequest p mode base length = true ↔
      l.owner ≠ p ∧ rangesOverlap l.base l.length base length = true ∧ (l.mode = .sole ∨ mode = .sole) := by
  simp [Lease.conflictsWithRequest, and_assoc]

/-- A request at the front of the scan stays on the list where something stands in its way. -/
def Stays (h : Hub) (kept : List Waiting) (w : Waiting) : Prop :=
  (∀ x ∈ h.leases.slots, x.lease ≠ none) ∨
    someLease h (fun l => l.conflictsWithRequest w.port w.mode w.base w.length) = true ∨
    ∃ v ∈ kept, v.port ≠ w.port ∧ rangesOverlap v.base v.length w.base w.length = true

/-- The condition under which the scan places a request. -/
theorem scan_places_iff (h : Hub) (kept : List Waiting) (w : Waiting) :
    ((h.conflictingLeases w.port w.mode w.base w.length).isEmpty && !overlapsWaiting kept w.port w.base w.length) = true ↔
      someLease h (fun l => l.conflictsWithRequest w.port w.mode w.base w.length) = false ∧
        ¬ ∃ v ∈ kept, v.port ≠ w.port ∧ rangesOverlap v.base v.length w.base w.length = true := by
  rw [Hub.conflictingLeases, ids_where_empty, Bool.and_eq_true, Bool.not_eq_true', Bool.not_eq_true',
    ← overlaps_waiting_iff, Bool.not_eq_true]

theorem scan_stays {h : Hub} {kept ws : List Waiting} {w : Waiting} (stays : Stays h kept w) :
    h.scanFrom kept (w :: ws) = h.scanFrom (kept ++ [w]) ws := by
  rw [Hub.scanFrom]
  split
  · next id found =>
    refine if_neg fun places => ?_
    obtain ⟨noConflict, noOverlap⟩ := (scan_places_iff h kept w).mp places
    rcases stays with taken | conflict | overlap
    · rw [(free_slot_none_iff h).mpr taken] at found
      cases found
    · exact Bool.false_ne_true (noConflict.symm.trans conflict)
    · exact noOverlap overlap
  · rfl

theorem scan_places {h : Hub} {kept ws : List Waiting} {w : Waiting} (moves : ¬ Stays h kept w) :
    ∃ id, h.freeSlot = some id ∧
      h.scanFrom kept (w :: ws) = ((h.occupySlot id w).grantIfDrained id).scanFrom kept ws := by
  obtain ⟨untaken, noConflict, noOverlap⟩ : (¬ ∀ x ∈ h.leases.slots, x.lease ≠ none) ∧ _ ∧ _ := by
    simpa only [Stays, not_or] using moves
  cases found : h.freeSlot with
  | none => exact absurd ((free_slot_none_iff h).mp found) untaken
  | some id =>
    refine ⟨id, rfl, ?_⟩
    rw [Hub.scanFrom, found]
    exact if_pos ((scan_places_iff h kept w).mpr ⟨Bool.eq_false_iff.mpr noConflict, noOverlap⟩)

/-- LEASE_EXPIRY of a lease that stands in a known slot. -/
theorem expire_lease_eq {h : Hub} {x : LeaseSlot} {l : Lease} {expiry : Nat} (law : SlotsLaw h) (hx : x ∈ h.leases.slots)
    (held : x.lease = some l) (granted : l.phase = .granted expiry) :
    h.expireLease x.id = some (((h.reach (expiry * 400000)).lapse x).leaseLeaves x.id) := by
  obtain ⟨id, generation, lease⟩ := x
  obtain ⟨owner, base, length, mode, phase⟩ := l
  cases held
  cases granted
  unfold Hub.expireLease
  rw [slot_of_mem law hx]
  rfl

/-- WAIT_DEADLINE of a waiting request, the only one of its port and tag. -/
theorem pass_deadline_waiting {h : Hub} {earlier later : List Waiting} {w : Waiting}
    (split : h.leases.waits = earlier ++ w :: later)
    (only : ∀ v ∈ earlier ++ later, ¬ (v.port = w.port ∧ v.tag = w.tag)) :
    h.passDeadline w.port w.tag = some (({ h.reach (w.deadline * 400000) with
      leases := { h.leases with waits := earlier ++ later } }.defer w.port (.leaseEnd w.tag .timeout 0)).scanWaits) := by
  have named (v : Waiting) : (v.port == w.port && v.tag == w.tag) = true ↔ v.port = w.port ∧ v.tag = w.tag := by simp
  have found : h.leases.waits.find? (fun v => v.port == w.port && v.tag == w.tag) = some w := by
    rw [split]
    exact find_first (by simp)
      (fun v hv => Bool.eq_false_iff.mpr fun same => only v (List.mem_append_left _ hv) ((named v).mp same))
  have left : h.leases.waits.filter (fun v => !(v.port == w.port && v.tag == w.tag)) = earlier ++ later := by
    have kept : ∀ vs : List Waiting, (∀ v ∈ vs, v ∈ earlier ++ later) →
        vs.filter (fun v => !(v.port == w.port && v.tag == w.tag)) = vs :=
      fun vs inside => List.filter_eq_self.mpr fun v hv => by
        rw [Bool.not_eq_true', Bool.eq_false_iff]
        exact fun same => only v (inside v hv) ((named v).mp same)
    rw [split, List.filter_append, List.filter_cons_of_neg (by simp), kept earlier (fun v => List.mem_append_left _),
      kept later (fun v => List.mem_append_right _)]
  have reached : (h.reach (w.deadline * periodsPerMillisecond)).leases.waits.filter
      (fun x => !(x.port == w.port && x.tag == w.tag)) = earlier ++ later := left
  unfold Hub.passDeadline
  rw [found]
  simp only []
  rw [reached]
  rfl

/-- A slot that holds the GRANTING lease of a port and a tag. -/
theorem granting_slot_eq {h : Hub} {x : LeaseSlot} {l : Lease} {duration deadline : Nat} {drain : List Index} {tag : Byte}
    (law : SlotsLaw h) (hx : x ∈ h.leases.slots) (held : x.lease = some l)
    (granting : l.phase = .granting duration deadline drain tag)
    (only : ∀ y ∈ h.leases.slots, ∀ k d b c, y.lease = some k → k.owner = l.owner → k.phase = .granting d b c tag →
      y.id = x.id) : h.grantingSlot l.owner tag = some (x.id, deadline, drain.length) := by
  unfold Hub.grantingSlot
  rw [List.findSome?_eq_some_iff]
  obtain ⟨older, newer, split⟩ := List.append_of_mem hx
  refine ⟨older, x, newer, split, ?_, fun y before => ?_⟩
  · obtain ⟨id, generation, lease⟩ := x
    obtain ⟨owner, base, length, mode, phase⟩ := l
    cases held
    cases granting
    exact if_pos ⟨rfl, rfl⟩
  · have distinct : y.id ≠ x.id := by
      have sorted := slots_sorted law
      rw [split] at sorted
      exact ne_of_lt ((List.pairwise_append.mp sorted).2.2 y before x List.mem_cons_self)
    have inside : y ∈ h.leases.slots := split ▸ List.mem_append_left _ before
    split
    · next owner base length mode duration deadline drain t lease =>
      exact if_neg fun same => distinct (only y inside _ _ _ _ lease same.1 (by rw [← same.2]))
    · rfl

/-- WAIT_DEADLINE of the request of a GRANTING lease. -/
theorem pass_deadline_granting {h : Hub} {p : Port} {tag : Byte} {id : LeaseId} {deadline left : Nat}
    (unlisted : ∀ w ∈ h.leases.waits, ¬ (w.port = p ∧ w.tag = tag))
    (found : h.grantingSlot p tag = some (id, deadline, left)) :
    h.passDeadline p tag =
      some (((h.reach (deadline * 400000)).leaseLeaves id).defer p (.leaseEnd tag .timeout left)) := by
  have absent : h.leases.waits.find? (fun w => w.port == p && w.tag == tag) = none :=
    List.find?_eq_none.mpr fun w hw same => unlisted w hw (by simpa using same)
  unfold Hub.passDeadline
  rw [absent, found]
  rfl

theorem lapse_eq (h : Hub) {x : LeaseSlot} {l : Lease} (held : x.lease = some l) : h.lapse x =
    (let g := h.notify l.owner .leaseLapsed 0 (some ⟨x.id, x.generation⟩);
      { g with leases := { g.leases with lapses := rise32 g.leases.lapses } }) := by
  unfold Hub.lapse
  rw [held]

/-- Settles O50: the lapse, the two timeouts, and one request of the scan. -/
theorem leasesLapseAndRequestsTimeOut : Obligations.LeasesLapseAndRequestsTimeOut := by
  refine ⟨fun s running law => ⟨fun x hx l expiry held granted => ?_, fun earlier w later split only => ?_,
      fun x hx l duration deadline drain tag held granting unlisted only => ?_⟩,
    fun h id c => ⟨rfl, rfl, rfl, rfl⟩, conflicts_with_request_iff, fun h kept => rfl,
    fun h kept w ws => ⟨fun stays => scan_stays stays, fun law moves x hx free lowest => ?_⟩⟩
  · rw [exec_lease_expiry, perform_after running (expire_lease_eq law hx held granted), lapse_eq _ held]
    rfl
  · rw [exec_wait_deadline, perform_after running (pass_deadline_waiting split only)]
    rfl
  · rw [exec_wait_deadline,
      perform_after running (pass_deadline_granting unlisted (granting_slot_eq law hx held granting only))]
    rfl
  · obtain ⟨id, found, placed⟩ := scan_places (ws := ws) moves
    rw [free_slot_lowest law hx free lowest] at found
    cases found
    rw [placed, occupy_slot_eq law hx]
    rfl

end Sys2Proof.Safety
end

section
/-! SUPPORT. What the aborts of a commit, the discarding of a HUB_RESET and the emptying of the leases do (chapters 1, 4
and 6). -/

namespace Sys2Proof.Safety

open Sys2Proof.Machine

/-! ### Aborted entries (R21) -/

/-- The burst in flight is the entry's. -/
def flying (h : Hub) (e : Entry) : Bool := e.phase == .active && h.scheduler.burst.map Burst.entry == some e.index

theorem burst_of_eq (h : Hub) (e : Entry) : h.burstOf e = flying h e := by
  unfold Hub.burstOf flying
  cases h.scheduler.burst with
  | none => simp
  | some x => simp [Bool.and_comm]

theorem flying_burst {h : Hub} {e : Entry} (flies : flying h e = true) :
    ∃ x, h.scheduler.burst = some x ∧ x.entry = e.index := by
  simp only [flying, Bool.and_eq_true, beq_iff_eq, Option.map_eq_some_iff] at flies
  exact flies.2

/-- The entries that an abort of all frees at once. -/
def freedOf (h : Hub) : List Entry := h.table.filter (fun e => !flying h e)

theorem freed_by_abort_eq (h : Hub) : h.freedByAbort (fun _ => true) = freedOf h := by
  simp only [Hub.freedByAbort, freedOf, burst_of_eq, Bool.true_and]

/-- An entry marked aborting, if its burst is in flight. -/
def markedOf (h : Hub) (kind : AbortKind) (e : Entry) : Entry :=
  if flying h e = true then { e with aborting := if e.aborting = some .torn then some .torn else some kind } else e

theorem mark_aborting_eq (h : Hub) (kind : AbortKind) :
    h.markAborting (fun _ => true) kind = { h with table := h.table.map (markedOf h kind) } := by
  have after_eq (e : Entry) : some (kind.after e.aborting) =
      if e.aborting = some .torn then some .torn else some kind := by
    unfold AbortKind.after
    split <;> rfl
  simp only [Hub.markAborting, burst_of_eq, Bool.true_and, after_eq]
  rfl

@[simp] theorem marked_index (h : Hub) (kind : AbortKind) (e : Entry) : (markedOf h kind e).index = e.index := by
  unfold markedOf
  split <;> rfl

/-- An entry that an abort leaves is the one whose burst is in flight, and carries the mark. -/
theorem left_by_abort {h g : Hub} {kind : AbortKind} {e : Entry}
    (table : g.table = h.table.map (markedOf h kind))
    (left : e ∈ (g.removeEntries ((freedOf h).map Entry.index)).table) :
    e.aborting ≠ none ∧ ∃ x, h.scheduler.burst = some x ∧ x.entry = e.index := by
  rw [remove_entries_table, table] at left
  obtain ⟨y, member, same⟩ := reorder_mem _ _ _ e left
  have like : e.aborting = y.aborting ∧ e.index = y.index := by
    rcases same with rfl | ⟨o, rfl⟩
    · exact ⟨rfl, rfl⟩
    · rw [promote_aborting, promote_index]
      exact ⟨rfl, rfl⟩
  obtain ⟨marked, kept⟩ := List.mem_filter.mp member
  obtain ⟨z, inTable, rfl⟩ := List.mem_map.mp marked
  rw [marked_index] at kept like
  have flies : flying h z = true := by
    by_contra rests
    have freed : z ∈ freedOf h := List.mem_filter.mpr ⟨inTable, by simpa using rests⟩
    have listed := List.mem_map_of_mem (f := Entry.index) freed
    simp [List.mem_map.mp listed] at kept
  rw [like.1, like.2, markedOf, if_pos flies]
  refine ⟨?_, flying_burst flies⟩
  simp only
  split <;> exact Option.some_ne_none _

/-! ### ABORTED replies (R22, R23) -/

/-- An ABORTED reply in a list of pending replies: in the place of the reply of its tag, or at the tail. -/
def answered (rs : List PendingReply) (x : Byte × Nat) : List PendingReply :=
  if rs.any (fun r => r.tag == x.1) = true then rs.map (fun r => if r.tag = x.1 then .aborted x.1 x.2 else r)
  else rs ++ [.aborted x.1 x.2]

theorem answer_aborted_replies (m : MessageLayer) (tag : Byte) (detail : Nat) :
    m.answerAborted tag detail = { m with replies := answered m.replies (tag, detail) } := answer_aborted_eq m tag detail

theorem answered_mem (rs : List PendingReply) (x : Byte × Nat) : PendingReply.aborted x.1 x.2 ∈ answered rs x := by
  unfold answered
  split
  · next listed =>
    obtain ⟨r, member, same⟩ := List.any_eq_true.mp listed
    exact List.mem_map.mpr ⟨r, member, if_pos (beq_iff_eq.mp same)⟩
  · exact List.mem_append_right _ List.mem_cons_self

theorem answered_keeps {rs : List PendingReply} {x y : Byte × Nat} (listed : PendingReply.aborted x.1 x.2 ∈ rs)
    (agree : y.1 = x.1 → y.2 = x.2) : PendingReply.aborted x.1 x.2 ∈ answered rs y := by
  by_cases same : y.1 = x.1
  · have equal : y = x := Prod.ext same (agree same)
    exact equal ▸ answered_mem rs y
  · unfold answered
    split
    · exact List.mem_map.mpr ⟨_, listed, if_neg (fun tag => same tag.symm)⟩
    · exact List.mem_append_left _ listed

/-- An ABORTED reply stands at the end where no later one of its tag differs. -/
theorem answered_all_mem {x : Byte × Nat} (older newer : List (Byte × Nat)) (rs : List PendingReply)
    (agree : ∀ y ∈ newer, y.1 = x.1 → y.2 = x.2) :
    PendingReply.aborted x.1 x.2 ∈ (older ++ x :: newer).foldl answered rs := by
  have keeps : ∀ (ys : List (Byte × Nat)) (rs : List PendingReply), (∀ y ∈ ys, y.1 = x.1 → y.2 = x.2) →
      PendingReply.aborted x.1 x.2 ∈ rs → PendingReply.aborted x.1 x.2 ∈ ys.foldl answered rs := by
    intro ys
    induction ys with
    | nil => exact fun _ _ listed => listed
    | cons y ys ih =>
      exact fun rs agree listed => ih _ (fun z hz => agree z (List.mem_cons_of_mem _ hz))
        (answered_keeps listed (agree y List.mem_cons_self))
  rw [List.foldl_append, List.foldl_cons]
  exact keeps newer _ agree (answered_mem _ x)

theorem answer_fences (fs : List Fence) (m : MessageLayer) :
    fs.foldl (fun m f => m.answerAborted f.tag 0) m =
      { m with replies := (fs.map (fun f => (f.tag, 0))).foldl answered m.replies } := by
  induction fs generalizing m with
  | nil => rfl
  | cons f fs ih => rw [List.foldl_cons, ih, answer_aborted_replies, List.map_cons, List.foldl_cons]

/-- The ABORTED replies that the aborted entries of port `p` are owed. -/
def owedEntries (p : Port) (es : List Entry) : List (Byte × Nat) :=
  (es.filter (fun e => e.port == p && e.aborting != some .torn)).map (fun e => (e.tag, e.wordsDone))

/-- The answers to aborted entries, port by port. -/
theorem answer_entries (es : List Entry) (h : Hub) :
    ∃ ms, es.foldl (fun h e =>
        if e.aborting = some .torn then h else h.onMessages e.port (fun m => m.answerAborted e.tag e.wordsDone)) h =
          { h with messages := ms } ∧
      ∀ p, ms.get p = { h.layer p with replies := (owedEntries p es).foldl answered (h.layer p).replies } := by
  induction es generalizing h with
  | nil => exact ⟨h.messages, rfl, fun p => rfl⟩
  | cons e es ih =>
    rw [List.foldl_cons]
    by_cases torn : e.aborting = some .torn
    · rw [if_pos torn]
      obtain ⟨ms, same, layers⟩ := ih h
      refine ⟨ms, same, fun p => ?_⟩
      rw [layers, owedEntries, owedEntries, List.filter_cons_of_neg (by simp [torn])]
    · rw [if_neg torn]
      obtain ⟨ms, same, layers⟩ := ih (h.onMessages e.port (fun m => m.answerAborted e.tag e.wordsDone))
      refine ⟨ms, same, fun p => ?_⟩
      rw [layers, Hub.onMessages_layer]
      by_cases own : p = e.port
      · subst own
        rw [if_pos rfl, answer_aborted_replies, owedEntries, owedEntries, List.filter_cons_of_pos (by simp [torn])]
        rfl
      · rw [if_neg own, owedEntries, owedEntries, List.filter_cons_of_neg (by simp [Ne.symm own])]

/-- The ABORTED replies that port `p` is owed when all its work is aborted. -/
def owedOf (h : Hub) (p : Port) : List (Byte × Nat) :=
  owedEntries p (freedOf h) ++ (h.layer p).fences.map (fun f => (f.tag, 0))

/-- The message layer of port `p` once all its work has been answered ABORTED. -/
def abortedLayer (h : Hub) (p : Port) : MessageLayer :=
  { h.layer p with replies := (owedOf h p).foldl answered (h.layer p).replies, fences := [] }

theorem answer_aborts_eq {h g : Hub} {m : Quad MessageLayer} (unmoved : g.messages = h.messages)
    (layers : ∀ p, m.get p = abortedLayer h p) : g.answerAborts (freedOf h) = { g with messages := m } := by
  obtain ⟨ms, same, each⟩ := answer_entries (freedOf h) g
  have messages : (ms.map fun m => { m.fences.foldl (fun m f => m.answerAborted f.tag 0) m with fences := [] }) = m := by
    apply quad_ext
    intro p
    have layer : g.layer p = h.layer p := congrArg (fun q => q.get p) unmoved
    rw [quad_get_map, each, answer_fences, layers, abortedLayer, owedOf, List.foldl_append, layer]
  rw [Hub.answerAborts, same, messages]

/-- A forced commit's abort (R23, R125). -/
theorem abort_answered_eq {h : Hub} {m : Quad MessageLayer} (layers : ∀ p, m.get p = abortedLayer h p) :
    h.abortAnswered = { h with table := h.table.map (markedOf h .answered), messages := m }.removeEntries
      ((freedOf h).map Entry.index) := by
  have marked := mark_aborting_eq h .answered
  rw [Hub.abortAnswered, freed_by_abort_eq, marked,
    answer_aborts_eq (h := h) (g := { h with table := h.table.map (markedOf h .answered) }) rfl layers]

/-! ### The work that a HUB_RESET discards (R24, R97) -/

/-- The tags that a HUB_RESET takes out of the tag set of port `p`. -/
def goneTags (h : Hub) (p : Port) : List Byte :=
  ((freedOf h).filter (fun e => e.port == p && e.aborting != some .torn)).map Entry.tag ++
    (h.layer p).fences.map Fence.tag ++
    ((h.layer p).replies.filter PendingReply.discardedByReset).map PendingReply.tag ++
    (h.leases.waits.filter (fun w => w.port == p)).map Waiting.tag ++ h.leases.slots.filterMap (grantingTag p)

theorem reset_tags_eq (h : Hub) (p : Port) : h.resetTags p (freedOf h) = goneTags h p := by
  unfold Hub.resetTags goneTags
  congr 1

/-- The message layer of port `p` once its work has been discarded. -/
def discardedLayer (h : Hub) (p : Port) : MessageLayer :=
  { h.layer p with
    tags := (h.layer p).tags.filter (fun t => !(goneTags h p).contains t)
    replies := (h.layer p).replies.filter (fun r => !r.discardedByReset)
    fences := [] }

theorem discard_work_eq {h : Hub} {m : Quad MessageLayer} (layers : ∀ p, m.get p = discardedLayer h p) :
    h.discardWork =
      { h with
        table := h.table.map (markedOf h .silent)
        messages := m
        leases := { h.leases with
          slots := h.leases.slots.map (fun (x : LeaseSlot) => { x with lease := none })
          waits := [] } }.removeEntries ((freedOf h).map Entry.index) := by
  have cleared : (⟨discardedLayer h 0, discardedLayer h 1, discardedLayer h 2, discardedLayer h 3⟩ : Quad MessageLayer) =
      m := by
    apply quad_ext
    intro p
    rw [layers]
    fin_cases p <;> rfl
  unfold Hub.discardWork
  rw [freed_by_abort_eq, mark_aborting_eq, ← cleared]
  simp only [reset_tags_eq]
  rfl

/-! ### What both leave -/

/-- The record of four items given port by port. -/
def quadOf {α : Type} (f : Port → α) : Quad α := ⟨f 0, f 1, f 2, f 3⟩

@[simp] theorem quad_of_get {α : Type} (f : Port → α) (p : Port) : (quadOf f).get p = f p := by
  fin_cases p <;> rfl

/-- With no fence on the list, a release adds no reply. -/
theorem unwatch_no_fences {m : MessageLayer} (none_left : m.fences = []) (gone : List Index) : m.unwatch gone = m := by
  rw [unwatch_eq, none_left]
  simp only [List.map_nil, List.filter_nil, List.append_nil]
  rw [← none_left]

theorem abort_answered_layer (h : Hub) (p : Port) : h.abortAnswered.layer p = abortedLayer h p := by
  rw [abort_answered_eq (m := quadOf (abortedLayer h)) (quad_of_get _), remove_entries_eq, release_layer]
  exact (congrArg (MessageLayer.unwatch · _) (quad_of_get (abortedLayer h) p)).trans (unwatch_no_fences rfl _)

theorem discard_work_layer (h : Hub) (p : Port) : h.discardWork.layer p = discardedLayer h p := by
  rw [discard_work_eq (m := quadOf (discardedLayer h)) (quad_of_get _), remove_entries_eq, release_layer]
  exact (congrArg (MessageLayer.unwatch · _) (quad_of_get (discardedLayer h) p)).trans (unwatch_no_fences rfl _)

theorem abort_answered_left {h : Hub} {e : Entry} (left : e ∈ h.abortAnswered.table) :
    e.aborting ≠ none ∧ ∃ x, h.scheduler.burst = some x ∧ x.entry = e.index := by
  rw [abort_answered_eq (m := quadOf (abortedLayer h)) (quad_of_get _)] at left
  exact left_by_abort rfl left

theorem discard_work_left {h : Hub} {e : Entry} (left : e ∈ h.discardWork.table) :
    e.aborting ≠ none ∧ ∃ x, h.scheduler.burst = some x ∧ x.entry = e.index := by
  rw [discard_work_eq (m := quadOf (discardedLayer h)) (quad_of_get _)] at left
  exact left_by_abort rfl left

theorem discard_work_slots (h : Hub) :
    h.discardWork.leases.slots = h.leases.slots.map (fun (x : LeaseSlot) => { x with lease := none }) := by
  rw [discard_work_eq (m := quadOf (discardedLayer h)) (quad_of_get _), remove_entries_eq, Hub.release_leases]
  simp only [List.map_map]
  exact List.map_congr_left fun x _ => rfl

theorem discard_work_waits (h : Hub) : h.discardWork.leases.waits = [] := by
  rw [discard_work_eq (m := quadOf (discardedLayer h)) (quad_of_get _), remove_entries_eq, Hub.release_leases]

/-- The ABORTED reply of an entry that a forced commit frees. -/
theorem abort_answers_entry {h : Hub} {e : Entry} (law : EntryLaw h) (tags : TagLaw h) (member : e ∈ h.table)
    (rests : ∀ x, h.scheduler.burst = some x → x.entry ≠ e.index) :
    PendingReply.aborted e.tag e.wordsDone ∈ (h.abortAnswered.layer e.port).replies := by
  have unmarked : e.aborting = none := by
    by_contra marked
    obtain ⟨_, x, burst, own⟩ := law.aborting e member marked
    exact rests x burst own
  have freed : e ∈ (freedOf h).filter (fun x => x.port == e.port && x.aborting != some .torn) := by
    refine List.mem_filter.mpr ⟨List.mem_filter.mpr ⟨member, ?_⟩, by simp [unmarked]⟩
    rw [Bool.not_eq_true', Bool.eq_false_iff]
    intro flies
    obtain ⟨x, burst, own⟩ := flying_burst flies
    exact rests x burst own
  have distinct : ((owedOf h e.port).map Prod.fst).Nodup := by
    have entries : (((freedOf h).filter (fun x => x.port == e.port && x.aborting != some .torn)).map Entry.tag).Sublist
        ((h.table.filter (fun x => x.port == e.port && x.aborting != some .torn)).map Entry.tag) :=
      (List.filter_sublist.filter _).map _
    have both : ((owedOf h e.port).map Prod.fst).Sublist
        ((h.table.filter (fun x => x.port == e.port && x.aborting != some .torn)).map Entry.tag ++
          (h.layer e.port).fences.map Fence.tag) := by
      rw [owedOf, owedEntries, List.map_append, List.map_map, List.map_map]
      exact entries.append (List.Sublist.refl _)
    refine List.Nodup.sublist both ?_
    have all := (tags e.port).1
    unfold outstanding at all
    simp only [List.append_assoc] at all
    rw [← List.append_assoc] at all
    exact (List.nodup_append.mp all).1
  obtain ⟨older, newer, split⟩ := List.append_of_mem (List.mem_append_left ((h.layer e.port).fences.map (fun f => (f.tag, 0)))
    (List.mem_map_of_mem (f := fun x : Entry => (x.tag, x.wordsDone)) freed))
  have owed : owedOf h e.port = older ++ (e.tag, e.wordsDone) :: newer := split
  rw [abort_answered_layer, abortedLayer, owed]
  refine answered_all_mem older newer _ fun y later same => ?_
  rw [owed, List.map_append, List.map_cons] at distinct
  have fresh := (List.nodup_cons.mp (List.nodup_append.mp distinct).2.1).1
  exact absurd (List.mem_map.mpr ⟨y, later, same⟩) fresh

/-- The ABORTED reply of a fence. -/
theorem abort_answers_fence {h : Hub} {p : Port} {f : Fence} (listed : f ∈ (h.layer p).fences) :
    PendingReply.aborted f.tag 0 ∈ (h.abortAnswered.layer p).replies := by
  obtain ⟨older, newer, split⟩ := List.append_of_mem listed
  have owed : owedOf h p =
      (owedEntries p (freedOf h) ++ older.map (fun f => (f.tag, 0))) ++ (f.tag, 0) :: newer.map (fun f => (f.tag, 0)) := by
    rw [owedOf, split, List.map_append, List.map_cons, List.append_assoc]
  rw [abort_answered_layer, abortedLayer, owed]
  refine answered_all_mem _ _ _ fun y later _ => ?_
  obtain ⟨g, _, rfl⟩ := List.mem_map.mp later
  rfl

end Sys2Proof.Safety
end

section
/-! SUPPORT. Lists of deferred replies, the emptying of the lease table, and proofs of the statements on aborts, the copy of
a commit and the reset event (chapters 4 and 6). -/

namespace Sys2Proof.Safety

open Sys2Proof.Machine

/-! ### Lists of deferred replies -/

/-- Replies that join the pending lists of their ports, in order. -/
theorem defer_all (ws : List (Port × PendingReply)) (h : Hub) :
    ∃ ms, ws.foldl (fun h w => h.defer w.1 w.2) h = { h with messages := ms } ∧
      ∀ p, ms.get p = { h.layer p with
        replies := (h.layer p).replies ++ (ws.filter (fun w => w.1 == p)).map Prod.snd } := by
  induction ws generalizing h with
  | nil => exact ⟨h.messages, rfl, fun p => by simp [Hub.layer]⟩
  | cons w ws ih =>
    obtain ⟨ms, same, layers⟩ := ih (h.defer w.1 w.2)
    refine ⟨ms, same, fun p => ?_⟩
    rw [layers, defer_layer]
    by_cases own : p = w.1
    · subst own
      rw [if_pos rfl, List.filter_cons_of_pos (by simp), List.map_cons]
      simp only [List.append_assoc, List.singleton_append]
    · rw [if_neg own, List.filter_cons_of_neg (by simp [Ne.symm own])]

/-- The deferred WAKEs are answered in the order of their list. -/
theorem defer_wakes (ws : List (Port × Byte)) (h : Hub) :
    ∃ ms, ws.foldl (fun h w => h.defer w.1 (.wake w.2)) h = { h with messages := ms } ∧
      ∀ p, ms.get p = { h.layer p with
        replies := (h.layer p).replies ++ (ws.filter (fun w => w.1 == p)).map (fun w => .wake w.2) } := by
  obtain ⟨ms, same, layers⟩ := defer_all (ws.map (fun w => (w.1, PendingReply.wake w.2))) h
  rw [List.foldl_map] at same
  refine ⟨ms, same, fun p => ?_⟩
  rw [layers, List.filter_map, List.map_map]
  rfl

/-- The waiting requests are answered ABORTED in the order of their list (R96). -/
theorem defer_waits (ws : List Waiting) (h : Hub) :
    ∃ ms, ws.foldl (fun h w => h.defer w.port (.leaseEnd w.tag .aborted 0)) h = { h with messages := ms } ∧
      ∀ p, ms.get p = { h.layer p with
        replies := (h.layer p).replies ++
          (ws.filter (fun w => w.port == p)).map (fun w => .leaseEnd w.tag .aborted 0) } := by
  obtain ⟨ms, same, layers⟩ := defer_all (ws.map (fun w => (w.port, PendingReply.leaseEnd w.tag .aborted 0))) h
  rw [List.foldl_map] at same
  refine ⟨ms, same, fun p => ?_⟩
  rw [layers, List.filter_map, List.map_map]
  rfl

/-! ### The emptying of the lease table (R96) -/

/-- The slot's lease is GRANTED. -/
def slotGranted (x : LeaseSlot) : Bool :=
  match x.lease with
  | some ⟨_, _, _, _, .granted _⟩ => true
  | _ => false

/-- The slot's lease is port `p`'s. -/
def slotOwned (p : Port) (x : LeaseSlot) : Bool :=
  match x.lease with
  | some l => l.owner == p
  | none => false

/-- The LEASE_LAPSED record after the lapse of the lease in a slot. -/
def lapsedRecord (r : Option NoticeRecord) (x : LeaseSlot) : Option NoticeRecord :=
  some (mergeNotice r 0 (some ⟨x.id, x.generation⟩))

/-- A count that has risen `k` times. -/
def risen (n k : Nat) : Nat := if k = 0 then n else min (n + k) 0xFFFFFFFF

theorem risen_succ (n k : Nat) : risen (rise32 n) k = risen n (k + 1) := by
  rw [rise_eq]
  unfold risen
  rcases k with _ | k
  · rfl
  · rw [if_neg (by omega), if_neg (by omega)]
    omega

theorem risen_length {α : Type} [DecidableEq α] (n : Nat) (xs : List α) :
    risen n xs.length = if xs = [] then n else min (n + xs.length) 0xFFFFFFFF := by
  unfold risen
  cases xs <;> simp

/-- What becomes of one slot's lease when the table is emptied. -/
def endLease (h : Hub) (x : LeaseSlot) : Hub :=
  match x.lease with
  | some ⟨owner, _, _, _, .granting _ _ _ tag⟩ => h.defer owner (.leaseEnd tag .aborted 0)
  | some ⟨_, _, _, _, .granted _⟩ => h.lapse x
  | none => h

theorem empty_leases_eq (h : Hub) : h.emptyLeases =
    (let g := h.leases.slots.foldl endLease (h.leases.waits.foldl (fun h w => h.defer w.port (.leaseEnd w.tag .aborted 0)) h)
     { g with leases := { g.leases with
        slots := g.leases.slots.map (fun (x : LeaseSlot) => { x with lease := none }), waits := [] } }) := by
  obtain ⟨ms, same, _⟩ := defer_waits h.leases.waits h
  unfold Hub.emptyLeases
  rw [same]
  rfl

theorem end_lease_free {x : LeaseSlot} (free : x.lease = none) (h : Hub) : endLease h x = h := by
  unfold endLease
  rw [free]

theorem end_lease_granting {x : LeaseSlot} {l : Lease} {duration deadline : Nat} {drain : List Index} {tag : Byte}
    (held : x.lease = some l) (phase : l.phase = .granting duration deadline drain tag) (h : Hub) :
    endLease h x = h.defer l.owner (.leaseEnd tag .aborted 0) := by
  obtain ⟨owner, base, length, mode, _⟩ := l
  cases phase
  unfold endLease
  rw [held]

theorem end_lease_granted {x : LeaseSlot} {l : Lease} {expiry : Nat} (held : x.lease = some l)
    (phase : l.phase = .granted expiry) (h : Hub) : endLease h x = h.lapse x := by
  obtain ⟨owner, base, length, mode, _⟩ := l
  cases phase
  unfold endLease
  rw [held]

/-- The ends of the leases in some slots, port by port. -/
theorem end_leases (xs : List LeaseSlot) (h : Hub) :
    ∃ ms, xs.foldl endLease h =
        { h with messages := ms, leases := { h.leases with lapses := risen h.leases.lapses (xs.filter slotGranted).length } } ∧
      ∀ p, ms.get p = { h.layer p with
        replies := (h.layer p).replies ++ (xs.filterMap (grantingTag p)).map (fun t => .leaseEnd t .aborted 0)
        notices := { (h.layer p).notices with
          leaseLapsed := ((xs.filter slotGranted).filter (slotOwned p)).foldl lapsedRecord
            (h.layer p).notices.leaseLapsed } } := by
  induction xs generalizing h with
  | nil => exact ⟨h.messages, rfl, fun p => by simp [Hub.layer]⟩
  | cons x xs ih =>
    obtain ⟨ms, same, layers⟩ := ih (endLease h x)
    rw [List.foldl_cons, same]
    cases lease : x.lease with
    | none =>
      rw [end_lease_free lease] at layers ⊢
      refine ⟨ms, ?_, fun p => ?_⟩
      · rw [List.filter_cons_of_neg (by simp [slotGranted, lease])]
      · rw [layers, List.filterMap_cons_none (by simp [grantingTag, lease]),
          List.filter_cons_of_neg (by simp [slotGranted, lease])]
    | some l =>
      obtain ⟨owner, base, length, mode, phase⟩ := l
      cases phase with
      | granting duration deadline drain tag =>
        rw [end_lease_granting lease rfl] at layers ⊢
        refine ⟨ms, ?_, fun p => ?_⟩
        · rw [List.filter_cons_of_neg (by simp [slotGranted, lease])]
          rfl
        · rw [layers, defer_layer, List.filter_cons_of_neg (by simp [slotGranted, lease])]
          by_cases own : p = owner
          · subst own
            rw [if_pos rfl, List.filterMap_cons_some (b := tag) (by simp [grantingTag, lease])]
            simp only [List.append_assoc, List.map_cons, List.singleton_append]
          · rw [if_neg own, List.filterMap_cons_none (by simp [grantingTag, lease, Ne.symm own])]
      | granted expiry =>
        rw [end_lease_granted lease rfl] at layers ⊢
        refine ⟨ms, ?_, fun p => ?_⟩
        · rw [List.filter_cons_of_pos (by simp [slotGranted, lease]), lapse_eq h lease, List.length_cons, ← risen_succ]
          rfl
        · rw [layers, List.filter_cons_of_pos (by simp [slotGranted, lease]),
            List.filterMap_cons_none (by simp [grantingTag, lease]), lapse_eq h lease]
          refine (congrArg (fun m : MessageLayer => { m with
            replies := m.replies ++ (xs.filterMap (grantingTag p)).map (fun t => PendingReply.leaseEnd t .aborted 0)
            notices := { m.notices with
              leaseLapsed := ((xs.filter slotGranted).filter (slotOwned p)).foldl lapsedRecord m.notices.leaseLapsed } })
            (Hub.onMessages_layer h owner p _)).trans ?_
          by_cases own : p = owner
          · subst own
            rw [if_pos rfl, List.filter_cons_of_pos (by simp [slotOwned, lease])]
            rfl
          · rw [if_neg own, List.filter_cons_of_neg (by simp [slotOwned, lease, Ne.symm own])]

/-- The message layer of port `p` once the lease table and the wait list have been emptied. -/
def emptiedLayer (h : Hub) (p : Port) : MessageLayer :=
  { h.layer p with
    replies := (h.layer p).replies ++
      (h.leases.waits.filter (fun w => w.port == p)).map (fun w => PendingReply.leaseEnd w.tag .aborted 0) ++
      (h.leases.slots.filterMap (grantingTag p)).map (fun t => PendingReply.leaseEnd t .aborted 0)
    notices := { (h.layer p).notices with
      leaseLapsed := ((h.leases.slots.filter slotGranted).filter (slotOwned p)).foldl lapsedRecord
        (h.layer p).notices.leaseLapsed } }

theorem emptied_parts {h : Hub} {p : Port} {m : MessageLayer} (same : m = emptiedLayer h p) :
    m.replies = (h.layer p).replies ++
        (h.leases.waits.filter (fun w => w.port == p)).map (fun w => PendingReply.leaseEnd w.tag .aborted 0) ++
        (h.leases.slots.filterMap (grantingTag p)).map (fun t => PendingReply.leaseEnd t .aborted 0) ∧
      m.notices = { (h.layer p).notices with
        leaseLapsed := ((h.leases.slots.filter slotGranted).filter (slotOwned p)).foldl lapsedRecord
          (h.layer p).notices.leaseLapsed } ∧
      { m with replies := [], notices := NoticeSet.empty } =
        { h.layer p with replies := [], notices := NoticeSet.empty } := by
  subst same
  exact ⟨rfl, rfl, rfl⟩

/-- The lease unit once the lease table and the wait list have been emptied. -/
def emptiedUnit (u : LeaseUnit) : LeaseUnit :=
  { u with
    slots := u.slots.map (fun (x : LeaseSlot) => { x with lease := none })
    waits := []
    lapses := risen u.lapses (u.slots.filter slotGranted).length }

/-- A change of geometry empties the lease table and the wait list (R96). -/
theorem emptied (h : Hub) :
    ∃ ms, h.emptyLeases = { h with messages := ms, leases := emptiedUnit h.leases } ∧ ∀ p, ms.get p = emptiedLayer h p := by
  obtain ⟨ms, same, layers⟩ := defer_waits h.leases.waits h
  obtain ⟨ns, ended, each⟩ := end_leases h.leases.slots { h with messages := ms }
  refine ⟨ns, ?_, fun p => (each p).trans ?_⟩
  · rw [empty_leases_eq, same, ended]
    rfl
  · rw [show Hub.layer { h with messages := ms } p = _ from layers p]
    rfl

/-- The aborts of a commit, by whether it aborts and whether the geometry changes. -/
theorem commit_aborts_eq (h : Hub) : h.commitAborts true true = h.abortAnswered.emptyLeases ∧
    h.commitAborts false true = h.emptyLeases ∧ h.commitAborts false false = h ∧
    h.commitAborts true false = h.abortAnswered.grantDrained := ⟨rfl, rfl, rfl, rfl⟩

theorem abort_answered_ids {h : Hub} (law : SlotsLaw h) : SlotsLaw h.abortAnswered := by
  unfold SlotsLaw
  rw [abort_answered_eq (m := quadOf (abortedLayer h)) (quad_of_get _), remove_entries_eq, Hub.release_leases, List.map_map]
  exact law

/-- Settles O20: what the aborts leave, their equations, and the emptying of the leases. -/
theorem abortsLeaveOnlyTheBurstInFlight : Obligations.AbortsLeaveOnlyTheBurstInFlight := by
  refine ⟨fun h law => ⟨fun e left => abort_answered_left left, fun p => ?_, fun tags e member rests =>
      abort_answers_entry law tags member rests, fun p f listed => abort_answers_fence listed,
      fun e left => discard_work_left left, fun p => ?_, fun x slot => ?_, discard_work_waits h, fun p r pending => ?_⟩,
    fun h => ⟨fun m layers => abort_answered_eq layers, fun m layers => ?_⟩, fun h => ?_, fun h => ?_⟩
  · rw [abort_answered_layer]
    rfl
  · rw [discard_work_layer]
    rfl
  · rw [discard_work_slots] at slot
    obtain ⟨y, _, rfl⟩ := List.mem_map.mp slot
    rfl
  · rw [discard_work_layer] at pending
    simpa using (List.mem_filter.mp pending).2
  · have same : (fun r : PendingReply => match r with
        | .wake _ => false
        | .commit _ _ => false
        | .hubReset _ => false
        | _ => true) = PendingReply.discardedByReset := funext fun r => by cases r <;> rfl
    refine discard_work_eq fun p => (layers p).trans ?_
    exact congrArg (fun d : PendingReply → Bool => ({ h.layer p with
      tags := (h.layer p).tags.filter (fun t => !(((freedOf h).filter (fun e => e.port == p && e.aborting != some .torn)).map
        Entry.tag ++ (h.layer p).fences.map Fence.tag ++ ((h.layer p).replies.filter d).map PendingReply.tag ++
        (h.leases.waits.filter (fun w => w.port == p)).map Waiting.tag ++
        h.leases.slots.filterMap (grantingTag p)).contains t)
      replies := (h.layer p).replies.filter (fun r => !d r)
      fences := [] } : MessageLayer)) same
  · obtain ⟨ms, same, layers⟩ := emptied h
    rw [same]
    refine ⟨rfl, rfl, rfl, ?_, fun p => ?_, rfl⟩
    · exact risen_length h.leases.lapses (h.leases.slots.filter slotGranted)
    · exact emptied_parts (layers p)
  · obtain ⟨both, empties, nothing, aborts⟩ := commit_aborts_eq h
    refine ⟨both, empties, nothing, fun law => ?_⟩
    rw [aborts, Hub.grantDrained, show h.abortAnswered.leases.slots.map LeaseSlot.id = _ from abort_answered_ids law]

/-! ### The end of SETTLE and the copy (R125, R127) -/

theorem abort_answered_frame (h : Hub) : ∃ t b u ms, h.abortAnswered =
    { h with table := t, scheduler := { h.scheduler with banks := b }, leases := u, messages := ms } := by
  rw [abort_answered_eq (m := quadOf (abortedLayer h)) (quad_of_get _)]
  exact ⟨_, _, _, _, rfl⟩

/-- The aborts of a commit touch the table, the banks' opened-for indices, the leases and the message layers alone. -/
theorem commit_aborts_frame (h : Hub) (abort geometry : Bool) : ∃ t b u ms, h.commitAborts abort geometry =
    { h with table := t, scheduler := { h.scheduler with banks := b }, leases := u, messages := ms } := by
  obtain ⟨both, empties, nothing, aborts⟩ := commit_aborts_eq h
  obtain ⟨t, b, u, ms, left⟩ := abort_answered_frame h
  cases abort <;> cases geometry
  · exact ⟨h.table, h.scheduler.banks, h.leases, h.messages, nothing⟩
  · obtain ⟨ns, same, _⟩ := emptied h
    exact ⟨_, _, _, _, empties.trans same⟩
  · obtain ⟨v, ns, same⟩ := grant_drained_frame h.abortAnswered
    exact ⟨t, b, v, ns, by rw [aborts, same, left]⟩
  · obtain ⟨ns, same, _⟩ := emptied h.abortAnswered
    exact ⟨t, b, _, ns, by rw [both, same, left]⟩

theorem end_settle_eq {h : Hub} {r : Bringup} (record : h.config.bringup = some r) (phase : r.phase = .settle) :
    h.endSettle = some { h with
      now := max h.now r.settleEnd
      config := { h.config with bringup := some { r with phase := .close } } } := by
  simp only [Hub.endSettle, record, phase, if_true]
  rfl

/-- The hub once a commit has been copied (R125). -/
def copied (h : Hub) (geometry : Bool) (p : Port) (tag : Byte) (torn : Bool) : Hub :=
  { h with
    channel := .bringup
    dram := if geometry then { h.dram with data := [], codes := [], epoch := h.dram.epoch + 1 } else h.dram
    upkeep := { h.upkeep with timer := none, debt := 0, level := .clear }
    rest := { h.rest with abandoning := false, leaving := none }
    config := { h.config with
      committed := h.config.staged
      change := none
      bringup := some ⟨.settle, h.now + h.config.staged.settleCount * h.config.staged.upkeepInterval, 0, p, tag, torn,
        geometry⟩ } }

theorem copy_eq {h : Hub} {force geometry torn : Bool} {p : Port} {tag : Byte}
    (pending : h.config.change = some ⟨.commit force geometry, p, tag, torn⟩) (idle : h.scheduler.idle = true)
    (out : h.dram.retention = false) :
    h.copy = some ((copied (h.commitAborts true geometry) geometry p tag torn).notifyUp .channelState 1) := by
  unfold Hub.copy
  rw [pending]
  exact if_pos ⟨idle, out⟩

/-- Settles O21: the two events' equations. -/
theorem commitCopyStartsBringup : Obligations.CommitCopyStartsBringup := by
  refine fun s running => ⟨fun r record phase => ?_, fun force geometry p tag torn pending burst flight out => ?_⟩
  · exact (exec_settle_end s).trans (perform_after running (end_settle_eq record phase))
  · rw [exec_commit_copy, perform_after running (copy_eq pending ((idle_iff _).mpr ⟨burst, flight⟩) out)]
    obtain ⟨t, b, u, ms, frame⟩ := commit_aborts_frame s.hub true geometry
    rw [frame]
    rfl

/-! ### The reset event (R132) -/

theorem discard_work_frame (h : Hub) : ∃ t b ms, h.discardWork =
    { h with
      table := t
      scheduler := { h.scheduler with banks := b }
      messages := ms
      leases := { h.leases with
        slots := h.leases.slots.map (fun (x : LeaseSlot) => { x with lease := none })
        waits := [] } } := by
  refine ⟨h.discardWork.table, h.discardWork.scheduler.banks, h.discardWork.messages, ?_⟩
  rw [← discard_work_slots h]
  rfl

/-- With no burst in flight, the discarding of the work leaves no entry. -/
theorem discard_work_empties {h : Hub} (free : h.scheduler.burst = none) : h.discardWork.table = [] := by
  refine List.eq_nil_iff_forall_not_mem.mpr fun e left => ?_
  obtain ⟨_, x, burst, _⟩ := discard_work_left left
  simp [free] at burst

/-- The message layer of port `q` after the reset event that answers the HUB_RESET of port `p`. -/
def resetLayer (h : Hub) (p : Port) (tag : Byte) (torn : Bool) (q : Port) : MessageLayer where
  tags := (discardedLayer h q).tags
  replies := (discardedLayer h q).replies ++ (h.rest.wakes.filter (fun w => w.1 == q)).map (fun w => .wake w.2) ++
    (if torn = false ∧ q = p then [PendingReply.hubReset tag] else [])
  notices := if (h.link q).state = .up then { NoticeSet.empty with channelState := some ⟨1, 0, []⟩ } else NoticeSet.empty
  fences := []
  taken := 0
  completed := 0
  refusals := 0

theorem after_reset_eq (l : Link) (m : MessageLayer) : m.afterReset l =
    { m with
      taken := 0
      completed := 0
      refusals := 0
      notices := if l.state = .up then { NoticeSet.empty with channelState := some ⟨1, 0, []⟩ }
        else NoticeSet.empty } := by
  unfold MessageLayer.afterReset
  by_cases up : l.state = .up
  · rw [if_pos up, if_pos up]
    rfl
  · rw [if_neg up, if_neg up]

/-- The answer to the HUB_RESET itself, unless its port has been torn down. -/
theorem answer_reset (h : Hub) (p : Port) (tag : Byte) (torn : Bool) :
    ∃ ms, (if torn then h else h.defer p (.hubReset tag)) = { h with messages := ms } ∧
      ∀ q, ms.get q = { h.layer q with
        replies := (h.layer q).replies ++ (if torn = false ∧ q = p then [PendingReply.hubReset tag] else []) } := by
  cases torn with
  | true => exact ⟨h.messages, rfl, fun q => by simp [Hub.layer]⟩
  | false =>
    refine ⟨_, rfl, fun q => (defer_layer h p q _).trans ?_⟩
    by_cases own : q = p
    · subst own
      rw [if_pos rfl, if_pos ⟨rfl, rfl⟩]
    · rw [if_neg own, if_neg (fun both => own both.2), List.append_nil]

/-- The hub after the reset event, its message layers apart. -/
def resetHub (h : Hub) (ms : Quad MessageLayer) : Hub :=
  { h with
    channel := .unready
    messages := ms
    table := []
    windows := Quad.all Window.powerUp
    scheduler := Scheduler.powerUp
    upkeep := { UpkeepUnit.powerUp with items := h.upkeep.items }
    leases := ⟨h.leases.slots.map (fun (x : LeaseSlot) => { x with lease := none }), [], 0, 0⟩
    rest := { RestUnit.powerUp with items := h.rest.items }
    config := { h.config with staged := Params.default, committed := Params.default, change := none }
    check := ⟨0, 0, none⟩
    dram := h.dram.forget }

theorem reset_event_eq {h : Hub} {p : Port} {tag : Byte} {torn : Bool}
    (pending : h.config.change = some ⟨.hubReset, p, tag, torn⟩) (burst : h.scheduler.burst = none)
    (flight : h.scheduler.flight = none) (settled : h.scheduler.rowsSettled = true) (out : h.dram.retention = false) :
    ∃ ms, h.resetEvent = some (resetHub h ms) ∧ ∀ q, ms.get q = resetLayer h p tag torn q := by
  obtain ⟨t, b, ns, frame⟩ := discard_work_frame h
  have empty := discard_work_empties burst
  have layers (q : Port) : ns.get q = discardedLayer h q := by
    rw [← discard_work_layer, frame]
    rfl
  rw [frame] at empty
  obtain ⟨os, wakes, woken⟩ := defer_wakes h.rest.wakes h.discardWork
  obtain ⟨ms, answer, answers⟩ := answer_reset (resetHub h (h.links.zip MessageLayer.afterReset os)) p tag torn
  refine ⟨ms, ?_, fun q => (answers q).trans ?_⟩
  · unfold Hub.resetEvent
    rw [pending]
    refine (if_pos ⟨(idle_iff _).mpr ⟨burst, flight⟩, settled, out⟩).trans (congrArg some ?_)
    have same : h.discardWork.rest.wakes = h.rest.wakes := by rw [frame]
    rw [same, wakes, frame]
    simp only [show t = [] from empty]
    exact answer
  · have layer : (resetHub h (h.links.zip MessageLayer.afterReset os)).layer q = (os.get q).afterReset (h.link q) :=
      quad_get_zip _ _ _ _
    rw [layer, woken, discard_work_layer, after_reset_eq]
    rfl

/-- With no burst in flight, an abort of all frees every entry. -/
theorem freed_of_idle {h : Hub} (free : h.scheduler.burst = none) : freedOf h = h.table :=
  List.filter_eq_self.mpr fun e _ => by simp [flying, free]

/-- The tags that a HUB_RESET takes, by what they name. -/
theorem gone_tags_iff {h : Hub} (free : h.scheduler.burst = none) (q : Port) (t : Byte) : t ∉ goneTags h q ↔
    (∀ e ∈ h.table, e.port = q → e.aborting ≠ some .torn → e.tag ≠ t) ∧ (∀ f ∈ (h.layer q).fences, f.tag ≠ t) ∧
      (∀ r ∈ (h.layer q).replies, r.discardedByReset = true → r.tag ≠ t) ∧
      (∀ w ∈ h.leases.waits, w.port = q → w.tag ≠ t) ∧ ∀ x ∈ h.leases.slots, grantingTag q x ≠ some t := by
  rw [goneTags, freed_of_idle free]
  simp only [List.mem_append, List.mem_map, List.mem_filter, List.mem_filterMap, not_or, not_exists, not_and,
    Bool.and_eq_true, beq_iff_eq, bne_iff_ne, and_assoc]

/-- Settles O22: the reset event's equation, and its message layers. -/
theorem resetEventRestoresTheUnits : Obligations.ResetEventRestoresTheUnits := by
  intro s p tag torn running pending burst flight settled out
  have rows : s.hub.scheduler.rowsSettled = true := by
    simpa [Scheduler.rowsSettled] using settled
  obtain ⟨ms, event, layers⟩ := reset_event_eq pending burst flight rows out
  have layer (q : Port) : (resetHub s.hub ms).layer q = resetLayer s.hub p tag torn q := layers q
  refine ⟨resetHub s.hub ms, (exec_reset_event s).trans (perform_after running event), rfl, rfl, rfl, rfl, rfl, rfl, rfl,
    rfl, rfl, rfl, rfl, rfl, rfl, rfl, rfl, rfl, rfl, rfl, rfl, fun q => ?_, fun q t => ?_, fun q => ?_⟩
  · rw [layer]
    exact ⟨rfl, rfl, rfl, rfl, rfl⟩
  · rw [layer, ← gone_tags_iff burst]
    simp [resetLayer, discardedLayer, List.mem_filter]
  · rw [layer]
    rfl

end Sys2Proof.Safety
end

section
/-! SUPPORT. The grants of drained leases and the placings of waiting requests as single moves (chapter 4). -/

namespace Sys2Proof.Safety

open Sys2Proof.Machine

/-! ### Grants and placings (R84, R89) -/

/-- All that a grant can do. -/
theorem grant_if_drained_cases (h : Hub) (id : LeaseId) : h.grantIfDrained id = h ∨
    ∃ x l duration deadline tag, h.slot id = some x ∧ x.lease = some l ∧ l.phase = .granting duration deadline [] tag ∧
      h.grantIfDrained id =
        (h.startLease id duration).defer l.owner (.leaseGrant tag ⟨id, x.generation⟩ duration) := by
  unfold Hub.grantIfDrained
  split
  · next found => exact .inr ⟨_, _, _, _, _, found, rfl, rfl, rfl⟩
  · exact .inl rfl

/-- The hub `g` comes from `h` by grants of drained leases and by placings of requests that wait in `h`, each of which
nothing in the table blocks. -/
inductive Placed (h : Hub) : Hub → Prop
  | refl : Placed h h
  | grant {g : Hub} (id : LeaseId) : Placed h g → Placed h (g.grantIfDrained id)
  | place {g : Hub} (id : LeaseId) (w : Waiting) : Placed h g → w ∈ h.leases.waits → g.freeSlot = some id →
      someLease g (fun l => l.conflictsWithRequest w.port w.mode w.base w.length) = false →
      Placed h ((g.occupySlot id w).grantIfDrained id)

theorem grants_placed {h g : Hub} (ids : List LeaseId) (placed : Placed h g) :
    Placed h (ids.foldl Hub.grantIfDrained g) := by
  induction ids generalizing g with
  | nil => exact placed
  | cons id ids ih => exact ih (.grant id placed)

/-- What the wait-list scan does: grants and placings, and the requests that it has not placed are left waiting. -/
theorem scan_placed {h g : Hub} (kept ws : List Waiting) (placed : Placed h g) (inside : ∀ w ∈ ws, w ∈ h.leases.waits) :
    ∃ k left, Placed h k ∧ (∀ w ∈ left, w ∈ kept ∨ w ∈ ws) ∧
      g.scanFrom kept ws = { k with leases := { k.leases with waits := left } } := by
  induction ws generalizing g kept with
  | nil => exact ⟨g, kept, placed, fun w hw => .inl hw, rfl⟩
  | cons w ws ih =>
    have inside' : ∀ v ∈ ws, v ∈ h.leases.waits := fun v hv => inside v (List.mem_cons_of_mem _ hv)
    by_cases stays : Stays g kept w
    · obtain ⟨k, left, moved, within, same⟩ := ih (kept ++ [w]) placed inside'
      refine ⟨k, left, moved, fun v hv => ?_, (scan_stays stays).trans same⟩
      rcases within v hv with old | new
      · rcases List.mem_append.mp old with old | only
        · exact .inl old
        · exact .inr (List.mem_singleton.mp only ▸ List.mem_cons_self)
      · exact .inr (List.mem_cons_of_mem _ new)
    · obtain ⟨id, free, same⟩ := scan_places (ws := ws) stays
      have unblocked : someLease g (fun l => l.conflictsWithRequest w.port w.mode w.base w.length) = false :=
        Bool.eq_false_iff.mpr fun conflict => stays (.inr (.inl conflict))
      obtain ⟨k, left, moved, within, scanned⟩ :=
        ih kept (.place id w placed (inside w List.mem_cons_self) free unblocked) inside'
      exact ⟨k, left, moved, fun v hv => (within v hv).imp_right (List.mem_cons_of_mem _), same.trans scanned⟩

/-- Two records of one lease, in whatever phase. -/
def SameLease (l m : Lease) : Prop := m.owner = l.owner ∧ m.base = l.base ∧ m.length = l.length ∧ m.mode = l.mode

theorem SameLease.refl (l : Lease) : SameLease l l := ⟨rfl, rfl, rfl, rfl⟩

theorem SameLease.trans {k l m : Lease} (a : SameLease k l) (b : SameLease l m) : SameLease k m :=
  ⟨b.1.trans a.1, b.2.1.trans a.2.1, b.2.2.1.trans a.2.2.1, b.2.2.2.trans a.2.2.2⟩

/-- The leases of one hub stand in the other, in whatever phase. -/
def LeasesStand (h g : Hub) : Prop := ∀ l, Standing h l → ∃ m, Standing g m ∧ SameLease l m

theorem LeasesStand.refl (h : Hub) : LeasesStand h h := fun l stands => ⟨l, stands, .refl l⟩

theorem LeasesStand.trans {h k g : Hub} (a : LeasesStand h k) (b : LeasesStand k g) : LeasesStand h g := by
  intro l stands
  obtain ⟨m, inMiddle, same⟩ := a l stands
  obtain ⟨n, inLast, same'⟩ := b m inMiddle
  exact ⟨n, inLast, same.trans same'⟩

/-- A grant changes the phase of leases alone. -/
theorem start_lease_standing {h : Hub} {id : LeaseId} {duration : Nat} {m : Lease} (stands : Standing (h.startLease id duration) m) :
    ∃ l, Standing h l ∧ SameLease l m := by
  obtain ⟨x, slot, held⟩ := stands
  obtain ⟨y, inside, rfl⟩ := List.mem_map.mp slot
  by_cases own : y.id = id
  · rw [if_pos own] at held
    obtain ⟨l, lease, rfl⟩ := Option.map_eq_some_iff.mp held
    exact ⟨l, ⟨y, inside, lease⟩, rfl, rfl, rfl, rfl⟩
  · rw [if_neg own] at held
    exact ⟨m, ⟨y, inside, held⟩, .refl m⟩

theorem start_lease_stands (h : Hub) (id : LeaseId) (duration : Nat) : LeasesStand h (h.startLease id duration) := by
  rintro l ⟨x, slot, held⟩
  by_cases own : x.id = id
  · exact ⟨{ l with phase := .granted (h.hubTime + duration) },
      ⟨_, List.mem_map.mpr ⟨x, slot, if_pos own⟩, congrArg (Option.map _) held⟩, rfl, rfl, rfl, rfl⟩
  · exact ⟨l, ⟨x, List.mem_map.mpr ⟨x, slot, if_neg own⟩, held⟩, .refl l⟩

theorem grant_stands (h : Hub) (id : LeaseId) : LeasesStand h (h.grantIfDrained id) := by
  rcases grant_if_drained_cases h id with same | ⟨_, _, duration, _, _, _, _, _, same⟩
  · rw [same]
    exact .refl h
  · rw [same]
    exact start_lease_stands h id duration

theorem grant_standing {h : Hub} {id : LeaseId} {m : Lease} (stands : Standing (h.grantIfDrained id) m) :
    ∃ l, Standing h l ∧ SameLease l m := by
  rcases grant_if_drained_cases h id with same | ⟨_, _, duration, _, _, _, _, _, same⟩
  · rw [same] at stands
    exact ⟨m, stands, .refl m⟩
  · rw [same] at stands
    exact start_lease_standing stands

/-- A lease in a hub that a request has occupied a slot of is the request's, or stood there before. -/
theorem occupied_standing {h : Hub} {id : LeaseId} {w : Waiting} {m : Lease} (stands : Standing (h.occupySlot id w) m) :
    m = ⟨w.port, w.base, w.length, w.mode, .granting w.duration w.deadline (drainOf h w) w.tag⟩ ∨ Standing h m := by
  obtain ⟨x, slot, held⟩ := stands
  obtain ⟨y, inside, rfl⟩ := List.mem_map.mp slot
  by_cases own : y.id = id
  · rw [if_pos own] at held
    exact .inl (Option.some.inj held).symm
  · rw [if_neg own] at held
    exact .inr ⟨y, inside, held⟩

/-- Where the slot is free, the leases that stood before stand. -/
theorem occupied_stands {h : Hub} {id : LeaseId} {w : Waiting} (law : SlotsLaw h) (free : h.freeSlot = some id) :
    LeasesStand h (h.occupySlot id w) := by
  rintro l ⟨x, slot, held⟩
  obtain ⟨y, inside, rfl, unheld, _⟩ := free_slot_some free
  refine ⟨l, ⟨x, List.mem_map.mpr ⟨x, slot, if_neg fun own => ?_⟩, held⟩, .refl l⟩
  rw [slot_eq_of_id_eq law slot inside own, unheld] at held
  cases held

theorem start_lease_law {h : Hub} (law : SlotsLaw h) (id : LeaseId) (duration : Nat) :
    SlotsLaw (h.startLease id duration) := by
  refine Eq.trans ?_ law
  rw [show (h.startLease id duration).leases.slots = h.leases.slots.map (fun (x : LeaseSlot) => if x.id = id then
    { x with lease := x.lease.map (fun l => { l with phase := .granted (h.hubTime + duration) }) } else x) from rfl,
    List.map_map]
  refine List.map_congr_left fun x _ => ?_
  by_cases own : x.id = id <;> simp [own]

theorem occupied_law {h : Hub} (law : SlotsLaw h) (id : LeaseId) (w : Waiting) : SlotsLaw (h.occupySlot id w) := by
  refine Eq.trans ?_ law
  rw [show (h.occupySlot id w).leases.slots = h.leases.slots.map (fun (x : LeaseSlot) => if x.id = id then
    { x with
      generation := x.generation + 1
      lease := some ⟨w.port, w.base, w.length, w.mode, .granting w.duration w.deadline (drainOf h w) w.tag⟩ } else x)
    from rfl, List.map_map]
  refine List.map_congr_left fun x _ => ?_
  by_cases own : x.id = id <;> simp [own]

theorem grant_law {h : Hub} (law : SlotsLaw h) (id : LeaseId) : SlotsLaw (h.grantIfDrained id) := by
  rcases grant_if_drained_cases h id with same | ⟨_, _, duration, _, _, _, _, _, same⟩
  · rw [same]
    exact law
  · rw [same]
    exact start_lease_law law id duration

theorem Placed.slots_law {h g : Hub} (placed : Placed h g) (law : SlotsLaw h) : SlotsLaw g := by
  induction placed with
  | refl => exact law
  | grant id _ ih => exact grant_law ih id
  | place id w _ _ _ _ ih => exact grant_law (occupied_law ih id w) id

theorem Placed.stand {h g : Hub} (placed : Placed h g) (law : SlotsLaw h) : LeasesStand h g := by
  induction placed with
  | refl => exact .refl h
  | grant id _ ih => exact ih.trans (grant_stands _ id)
  | place id w before _ free _ ih =>
    exact ih.trans ((occupied_stands (before.slots_law law) free).trans (grant_stands _ id))

/-- A lease after grants and placings stood before, or was a request that waited. -/
theorem Placed.standing {h g : Hub} (placed : Placed h g) {m : Lease} (stands : Standing g m) :
    (∃ l, Standing h l ∧ SameLease l m) ∨ ∃ w ∈ h.leases.waits, m.owner = w.port := by
  induction placed generalizing m with
  | refl => exact .inl ⟨m, stands, .refl m⟩
  | grant id _ ih =>
    obtain ⟨l, stood, same⟩ := grant_standing stands
    rcases ih stood with ⟨k, first, like⟩ | ⟨w, waits, own⟩
    · exact .inl ⟨k, first, like.trans same⟩
    · exact .inr ⟨w, waits, same.1.trans own⟩
  | place id w _ waits _ _ ih =>
    obtain ⟨l, stood, same⟩ := grant_standing stands
    rcases occupied_standing stood with rfl | stood
    · exact .inr ⟨w, waits, same.1⟩
    · rcases ih stood with ⟨k, first, like⟩ | ⟨v, waited, own⟩
      · exact .inl ⟨k, first, like.trans same⟩
      · exact .inr ⟨v, waited, same.1.trans own⟩

/-- Grants and placings touch the leases and the pending replies alone. -/
theorem Placed.frame {h g : Hub} (placed : Placed h g) :
    ∃ u ms, g = { h with leases := u, messages := ms } ∧ u.lapses = h.leases.lapses ∧ u.waits = h.leases.waits := by
  have grants (k : Hub) (id : LeaseId) : ∃ u ms, k.grantIfDrained id = { k with leases := u, messages := ms } ∧
      u.lapses = k.leases.lapses ∧ u.waits = k.leases.waits := by
    rcases grant_if_drained_cases k id with same | ⟨_, _, _, _, _, _, _, _, same⟩
    · exact ⟨_, _, same, rfl, rfl⟩
    · exact ⟨_, _, same, rfl, rfl⟩
  induction placed with
  | refl => exact ⟨_, _, rfl, rfl, rfl⟩
  | @grant k id _ ih =>
    obtain ⟨u, ms, rfl, lapses, waits⟩ := ih
    obtain ⟨v, ns, same, lapses', waits'⟩ := grants { h with leases := u, messages := ms } id
    exact ⟨v, ns, same, lapses'.trans lapses, waits'.trans waits⟩
  | @place k id w _ _ _ _ ih =>
    obtain ⟨u, ms, rfl, lapses, waits⟩ := ih
    obtain ⟨v, ns, same, lapses', waits'⟩ := grants (({ h with leases := u, messages := ms } : Hub).occupySlot id w) id
    exact ⟨v, ns, same, lapses'.trans lapses, waits'.trans waits⟩

/-- Grants and placings add replies at the tails of the pending lists, each to the owner of a lease. -/
theorem grant_layer (h : Hub) (id : LeaseId) (p : Port) :
    ∃ more, (h.grantIfDrained id).layer p = { h.layer p with replies := (h.layer p).replies ++ more } ∧
      (more ≠ [] → ∃ l, Standing h l ∧ l.owner = p) := by
  rcases grant_if_drained_cases h id with same | ⟨x, l, _, _, _, found, held, _, same⟩
  · exact ⟨[], by rw [same, List.append_nil], fun some => absurd rfl some⟩
  · rw [same, defer_layer]
    by_cases own : p = l.owner
    · exact ⟨_, by rw [own, if_pos rfl]; rfl, fun _ => ⟨l, ⟨x, (slot_some found).1, held⟩, own.symm⟩⟩
    · exact ⟨[], by rw [if_neg own, List.append_nil]; rfl, fun some => absurd rfl some⟩

theorem Placed.layer {h g : Hub} (placed : Placed h g) (p : Port) :
    ∃ more, g.layer p = { h.layer p with replies := (h.layer p).replies ++ more } ∧
      (more ≠ [] → (∃ l, Standing h l ∧ l.owner = p) ∨ ∃ w ∈ h.leases.waits, w.port = p) := by
  have join {k : Hub} {more some : List PendingReply} (first : k.layer p = { h.layer p with replies := (h.layer p).replies ++ more })
      {m : MessageLayer} (then_ : m = { k.layer p with replies := (k.layer p).replies ++ some }) :
      m = { h.layer p with replies := (h.layer p).replies ++ (more ++ some) } := by
    rw [then_, first, List.append_assoc]
  have owners {k : Hub} (before : Placed h k) (owned : ∃ l, Standing k l ∧ l.owner = p) :
      (∃ l, Standing h l ∧ l.owner = p) ∨ ∃ w ∈ h.leases.waits, w.port = p := by
    obtain ⟨l, stands, own⟩ := owned
    rcases before.standing stands with ⟨m, stood, same⟩ | ⟨w, waits, port⟩
    · exact .inl ⟨m, stood, same.1.symm.trans own⟩
    · exact .inr ⟨w, waits, port.symm.trans own⟩
  induction placed with
  | refl => exact ⟨[], by rw [List.append_nil], fun some => absurd rfl some⟩
  | @grant k id before ih =>
    obtain ⟨more, first, mine⟩ := ih
    obtain ⟨some, then_, granted⟩ := grant_layer k id p
    refine ⟨more ++ some, join first then_, fun any => ?_⟩
    by_cases none_before : more = []
    · exact owners before (granted fun none_now => any (by rw [none_before, none_now]; rfl))
    · exact mine none_before
  | @place k id w before waits _ _ ih =>
    obtain ⟨more, first, mine⟩ := ih
    obtain ⟨some, then_, granted⟩ := grant_layer (k.occupySlot id w) id p
    refine ⟨more ++ some, join first then_, fun any => ?_⟩
    by_cases none_before : more = []
    · obtain ⟨l, stands, own⟩ := granted fun none_now => any (by rw [none_before, none_now]; rfl)
      rcases occupied_standing stands with rfl | stood
      · exact .inr ⟨w, waits, own⟩
      · exact owners before ⟨l, stood, own⟩
    · exact mine none_before

end Sys2Proof.Safety
end

section
/-! SUPPORT. A proof of the statement on the teardown of a port (chapter 10). -/

namespace Sys2Proof.Safety

open Sys2Proof.Machine

/-! ### The teardown of a port (R177) -/

/-- The link of a port that has been torn down. -/
def tornLink (h : Hub) (p : Port) : Link :=
  { Link.powerUp with
    trainingTimer := some (h.now + 800000)
    receiver := (h.link p).receiver
    wire := (h.link p).wire }

/-- The message layer of a port that has been torn down. -/
def tornLayer (h : Hub) (p : Port) : MessageLayer :=
  ⟨[], [], NoticeSet.empty, [], (h.layer p).taken, (h.layer p).completed, (h.layer p).refusals⟩

/-- An entry marked torn, if it is the port's and its burst is in flight. -/
def tornEntry (h : Hub) (p : Port) (e : Entry) : Entry :=
  if e.port = p ∧ flying h e = true then { e with aborting := some .torn } else e

/-- The entries of a port that its teardown frees at once. -/
def freedAt (h : Hub) (p : Port) : List Entry := h.table.filter (fun e => e.port == p && !flying h e)

/-- The port's work gone from the hub, but for its entries. -/
def portCleared (h : Hub) (p : Port) : Hub :=
  { h with
    links := h.links.set p (tornLink h p)
    messages := h.messages.set p (tornLayer h p)
    leases := { h.leases with
      slots := h.leases.slots.map (fun (x : LeaseSlot) => if slotOwned p x = true then { x with lease := none } else x)
      waits := h.leases.waits.filter (fun w => w.port != p) }
    table := h.table.map (tornEntry h p) }

/-- The port's entries gone too, and the held entries re-checked. -/
def portRechecked (h : Hub) (p : Port) : Hub :=
  ((portCleared h p).removeEntries ((freedAt h p).map Entry.index)).recheck

/-- The wait list scanned, and the drained leases granted. -/
def portReleased (h : Hub) (p : Port) : Hub := (portRechecked h p).scanWaits.grantDrained

/-- What the teardown does to the rest unit. -/
def tornRest (h : Hub) (p : Port) : RestUnit :=
  { h.rest with
    votes := h.rest.votes.set p false
    wakes := h.rest.wakes.filter (fun w => w.1 != p) }

/-- What the teardown does to the configuration unit. -/
def tornConfig (h : Hub) (p : Port) : ConfigUnit :=
  { h.config with
    holder := if h.config.holder = some p then none else h.config.holder
    change := h.config.change.map (fun c => if c.port = p then { c with torn := true } else c)
    bringup := h.config.bringup.map (fun r => if r.port = p then { r with torn := true } else r) }

/-- The hub after a teardown, but for the notice that the role is free. -/
def tornHub (h : Hub) (p : Port) : Hub := { portReleased h p with rest := tornRest h p, config := tornConfig h p }

theorem mark_torn_eq (h : Hub) (p : Port) :
    h.markAborting (fun e => e.port == p) .torn = { h with table := h.table.map (tornEntry h p) } := by
  simp only [Hub.markAborting, burst_of_eq]
  refine congrArg (fun t => { h with table := t }) (List.map_congr_left fun e _ => ?_)
  unfold tornEntry AbortKind.after
  by_cases own : e.port = p ∧ flying h e = true
  · rw [if_pos own, if_pos (by simp [own.1, own.2])]
    split <;> rfl
  · rw [if_neg own, if_neg (by simpa using own)]

/-- What the scan and the grants of a teardown do. -/
theorem port_released_placed (h : Hub) (p : Port) : ∃ k left,
    Placed (portRechecked h p) k ∧ (∀ w ∈ left, w ∈ (portRechecked h p).leases.waits) ∧
      Placed { k with leases := { k.leases with waits := left } } (portReleased h p) := by
  obtain ⟨k, left, placed, within, scanned⟩ :=
    scan_placed [] (portRechecked h p).leases.waits (.refl (h := portRechecked h p)) (fun w hw => hw)
  refine ⟨k, left, placed, fun w hw => (within w hw).resolve_left List.not_mem_nil, ?_⟩
  rw [portReleased, Hub.grantDrained, Hub.scanWaits, scanned]
  exact grants_placed _ .refl

theorem port_released_frame (h : Hub) (p : Port) : ∃ u ms,
    portReleased h p = { portRechecked h p with leases := u, messages := ms } ∧ u.lapses = h.leases.lapses := by
  obtain ⟨k, left, placed, _, granted⟩ := port_released_placed h p
  obtain ⟨u, ms, rfl, lapses, _⟩ := placed.frame
  obtain ⟨v, ns, same, lapses', _⟩ := granted.frame
  exact ⟨v, ns, same, lapses'.trans lapses⟩

/-- What the teardown leaves to the rest unit and the configuration unit. -/
def roleTorn (g : Hub) (p : Port) : Hub :=
  let g := { g with rest := tornRest g p }
  let g := { g with config := { tornConfig g p with holder := g.config.holder } }
  if g.config.holder = some p then
    { g with config := { g.config with holder := none } }.notifyUp .controlChanged 0xFF
  else g

theorem teardown_released (h : Hub) (p : Port) : h.teardown p = roleTorn (portReleased h p) p := by
  let gone : Hub := { h with
    links := (portCleared h p).links
    messages := (portCleared h p).messages
    leases := (portCleared h p).leases }
  have marked : gone.markAborting (fun e => e.port == p) .torn = portCleared h p := mark_torn_eq gone p
  have freed : gone.freedByAbort (fun e => e.port == p) = freedAt h p :=
    List.filter_congr fun e _ => by rw [burst_of_eq]; rfl
  have shape : h.teardown p = roleTorn ((((gone.markAborting (fun e => e.port == p) .torn).removeEntries
      ((gone.freedByAbort (fun e => e.port == p)).map Entry.index)).recheck).scanWaits.grantDrained) p := rfl
  rw [shape, marked, freed]
  rfl

theorem teardown_eq (h : Hub) (p : Port) : h.teardown p =
    if h.config.holder = some p then (tornHub h p).notifyUp .controlChanged 0xFF else tornHub h p := by
  obtain ⟨u, ms, frame, _⟩ := port_released_frame h p
  have rest : tornRest (portReleased h p) p = tornRest h p := by rw [frame]; rfl
  have config : (portReleased h p).config = h.config := by rw [frame]; rfl
  rw [teardown_released]
  unfold roleTorn tornHub tornConfig
  simp only [rest, config]
  split
  · rfl
  · rfl

/-! ### What is left of the port, and of the others -/

theorem slot_without_owner (gone : List Index) (x : LeaseSlot) {m : Lease} (held : (slotWithout gone x).lease = some m) :
    ∃ l, x.lease = some l ∧ SameLease l m := by
  obtain ⟨l, lease, rfl⟩ := Option.map_eq_some_iff.mp held
  refine ⟨l, lease, ?_⟩
  split <;> exact ⟨rfl, rfl, rfl, rfl⟩

theorem rechecked_slots (h : Hub) (p : Port) : (portRechecked h p).leases.slots =
    (portCleared h p).leases.slots.map (slotWithout ((freedAt h p).map Entry.index)) := by
  rw [portRechecked, remove_entries_eq]
  rfl

theorem rechecked_waits (h : Hub) (p : Port) :
    (portRechecked h p).leases.waits = h.leases.waits.filter (fun w => w.port != p) := by
  rw [portRechecked, remove_entries_eq]
  rfl

theorem rechecked_standing {h : Hub} {p : Port} {m : Lease} (stands : Standing (portRechecked h p) m) :
    m.owner ≠ p ∧ ∃ l, Standing h l ∧ SameLease l m := by
  obtain ⟨x, slot, held⟩ := stands
  rw [rechecked_slots] at slot
  obtain ⟨y, inside, rfl⟩ := List.mem_map.mp slot
  obtain ⟨l, lease, same⟩ := slot_without_owner _ y held
  obtain ⟨z, first, rfl⟩ := List.mem_map.mp inside
  by_cases own : slotOwned p z = true
  · rw [if_pos own] at lease
    cases lease
  · rw [if_neg own] at lease
    refine ⟨fun port => own ?_, l, ⟨z, first, lease⟩, same⟩
    simp only [slotOwned, lease, beq_iff_eq]
    exact same.1.symm.trans port

theorem rechecked_stands {h : Hub} {p : Port} {l : Lease} (stands : Standing h l) (other : l.owner ≠ p) :
    ∃ m, Standing (portRechecked h p) m ∧ SameLease l m := by
  obtain ⟨x, slot, held⟩ := stands
  have kept : x ∈ (portCleared h p).leases.slots :=
    List.mem_map.mpr ⟨x, slot, if_neg (by simpa [slotOwned, held] using other)⟩
  have left := List.mem_map_of_mem (f := slotWithout ((freedAt h p).map Entry.index)) kept
  rw [← rechecked_slots] at left
  refine ⟨_, ⟨_, left, congrArg (Option.map _) held⟩, ?_⟩
  dsimp only
  split <;> exact ⟨rfl, rfl, rfl, rfl⟩

theorem rechecked_law {h : Hub} (p : Port) (law : SlotsLaw h) : SlotsLaw (portRechecked h p) := by
  unfold SlotsLaw
  rw [rechecked_slots, List.map_map, ← law, show (portCleared h p).leases.slots = h.leases.slots.map _ from rfl, List.map_map]
  refine List.map_congr_left fun x _ => ?_
  simp only [Function.comp, slotWithout]
  split <;> rfl

theorem rechecked_layer (h : Hub) (p q : Port) : (portRechecked h p).layer q =
    (if q = p then tornLayer h p else h.layer q).unwatch ((freedAt h p).map Entry.index) := by
  have cleared : (portCleared h p).layer q = if q = p then tornLayer h p else h.layer q := quad_get_set _ _ _ _
  rw [← cleared]
  have same : (portRechecked h p).layer q =
      ((portCleared h p).removeEntries ((freedAt h p).map Entry.index)).layer q := rfl
  rw [same, remove_entries_eq, release_layer]
  rfl

theorem rechecked_waiter {h : Hub} {p : Port} {w : Waiting} (waits : w ∈ (portRechecked h p).leases.waits) :
    w.port ≠ p := by
  rw [rechecked_waits] at waits
  simpa using (List.mem_filter.mp waits).2

/-! ### The leases and requests after the scan and the grants of a teardown -/

theorem released_standing {h : Hub} {p : Port} {m : Lease} (stands : Standing (portReleased h p) m) : m.owner ≠ p := by
  obtain ⟨k, left, placed, within, granted⟩ := port_released_placed h p
  rcases granted.standing stands with ⟨l, stood, same⟩ | ⟨w, waits, own⟩
  · rcases placed.standing stood with ⟨l', first, same'⟩ | ⟨w, waits, own⟩
    · rw [same.1, same'.1]
      exact (rechecked_standing first).1
    · rw [same.1, own]
      exact rechecked_waiter waits
  · rw [own]
    exact rechecked_waiter (within w waits)

theorem released_waits {h : Hub} {p : Port} {w : Waiting} (waits : w ∈ (portReleased h p).leases.waits) : w.port ≠ p := by
  obtain ⟨k, left, _, within, granted⟩ := port_released_placed h p
  obtain ⟨u, ms, same, _, kept⟩ := granted.frame
  rw [same] at waits
  exact rechecked_waiter (within w (by rw [← show u.waits = left from kept]; exact waits))

theorem released_stands {h : Hub} {p : Port} {l : Lease} (law : SlotsLaw h) (stands : Standing h l) (other : l.owner ≠ p) :
    ∃ m, Standing (portReleased h p) m ∧ SameLease l m := by
  obtain ⟨k, left, placed, within, granted⟩ := port_released_placed h p
  obtain ⟨a, inFirst, likeFirst⟩ := rechecked_stands stands other
  obtain ⟨b, inMiddle, likeMiddle⟩ := placed.stand (rechecked_law p law) a inFirst
  obtain ⟨c, inLast, likeLast⟩ := granted.stand (placed.slots_law (rechecked_law p law)) b inMiddle
  exact ⟨c, inLast, likeFirst.trans (likeMiddle.trans likeLast)⟩

theorem released_layer (h : Hub) (p q : Port) : ∃ more, (portReleased h p).layer q =
    { (portRechecked h p).layer q with replies := ((portRechecked h p).layer q).replies ++ more } ∧ (q = p → more = []) := by
  obtain ⟨k, left, placed, within, granted⟩ := port_released_placed h p
  obtain ⟨more, first, mine⟩ := placed.layer q
  obtain ⟨some, then_, mine'⟩ := granted.layer q
  have first' : Hub.layer { k with leases := { k.leases with waits := left } } q = _ := first
  refine ⟨more ++ some, by rw [then_, first', List.append_assoc], fun own => ?_⟩
  subst own
  have none_first : more = [] := by
    by_contra any
    rcases mine any with ⟨l, stands, owner⟩ | ⟨w, waits, port⟩
    · exact (rechecked_standing stands).1 owner
    · exact rechecked_waiter waits port
  have none_then : some = [] := by
    by_contra any
    rcases mine' any with ⟨l, stands, owner⟩ | ⟨w, waits, port⟩
    · rcases placed.standing stands with ⟨l', stood, same⟩ | ⟨w, waits, port⟩
      · exact (rechecked_standing stood).1 (same.1.symm.trans owner)
      · exact rechecked_waiter waits (port.symm.trans owner)
    · exact rechecked_waiter (within w waits) port
  rw [none_first, none_then]
  rfl

/-! ### The entries after a teardown -/

/-- An entry, but for its holds and for whether it is HELD or QUEUED. -/
def entryCore (e : Entry) : Entry :=
  { e with holds := Holds.none, phase := if e.phase = .held then .queued else e.phase }

theorem same_core {x y : Entry} (same : entryCore x = entryCore y) :
    x.port = y.port ∧ x.index = y.index ∧ x.aborting = y.aborting :=
  ⟨(congrArg Entry.port same :), (congrArg Entry.index same :), (congrArg Entry.aborting same :)⟩

/-- New holds and a promotion leave the rest of an entry. -/
theorem entry_core_promote (e : Entry) (x : Holds) : entryCore { e with holds := x }.promote = entryCore e := by
  rcases promote_cases { e with holds := x } with ⟨held, _, promoted⟩ | ⟨_, same⟩
  · rw [promoted]
    simp only at held
    simp [entryCore, held]
  · rw [same]
    rfl

theorem reorder_core (gone : List Index) (ahead es : List Entry) :
    (reorder gone ahead es).map entryCore = es.map entryCore := by
  induction es generalizing ahead with
  | nil => rfl
  | cons e es ih =>
    rw [reorder_cons, List.map_cons, ih, List.map_cons, reordered_eq]
    congr 1
    split
    · split
      · exact entry_core_promote e _
      · rfl
    · rfl

theorem recheck_core (h : Hub) : h.recheck.table.map entryCore = h.table.map entryCore := by
  rw [show h.recheck.table = h.table.map _ from rfl, List.map_map]
  refine List.map_congr_left fun e _ => ?_
  simp only [Function.comp]
  split
  · exact entry_core_promote e _
  · rfl

/-- What is left of the table, but for holds and promotions. -/
theorem rechecked_core (h : Hub) (p : Port) : (portRechecked h p).table.map entryCore =
    ((h.table.map (tornEntry h p)).filter (fun e => decide (e.index ∉ (freedAt h p).map Entry.index))).map entryCore := by
  rw [portRechecked, recheck_core, remove_entries_eq, Hub.release_table, reorder_core]
  rfl

@[simp] theorem torn_entry_index (h : Hub) (p : Port) (e : Entry) : (tornEntry h p e).index = e.index := by
  unfold tornEntry
  split <;> rfl

@[simp] theorem torn_entry_port (h : Hub) (p : Port) (e : Entry) : (tornEntry h p e).port = e.port := by
  unfold tornEntry
  split <;> rfl

/-- An entry of the port that is left is the one whose burst is in flight, and carries the mark. -/
theorem rechecked_torn {h : Hub} {p : Port} {e : Entry} (left : e ∈ (portRechecked h p).table) (own : e.port = p) :
    e.aborting = some .torn ∧ ∃ x, h.scheduler.burst = some x ∧ x.entry = e.index := by
  have listed := List.mem_map_of_mem (f := entryCore) left
  rw [rechecked_core] at listed
  obtain ⟨y, kept, core⟩ := List.mem_map.mp listed
  obtain ⟨marked, stays⟩ := List.mem_filter.mp kept
  obtain ⟨z, inTable, rfl⟩ := List.mem_map.mp marked
  obtain ⟨port, number, aborting⟩ := same_core core
  have mine : z.port = p := (torn_entry_port h p z).symm.trans (port.trans own)
  have index : z.index = e.index := (torn_entry_index h p z).symm.trans number
  have flies : flying h z = true := by
    by_contra rests
    have freed : z ∈ freedAt h p := List.mem_filter.mpr ⟨inTable, by simp [mine, rests]⟩
    simp only [torn_entry_index, decide_eq_true_iff] at stays
    exact stays (List.mem_map_of_mem freed)
  rw [tornEntry, if_pos ⟨mine, flies⟩] at aborting
  rw [← index]
  exact ⟨aborting.symm, flying_burst flies⟩

/-- The entries of the other ports stay, but for their holds. -/
theorem rechecked_others {h : Hub} (p : Port) (law : IndexLaw h) :
    ((portRechecked h p).table.filter (fun e => e.port != p)).map entryCore =
      (h.table.filter (fun e => e.port != p)).map entryCore := by
  have commutes (es : List Entry) : (es.filter (fun e => e.port != p)).map entryCore =
      (es.map entryCore).filter (fun e => e.port != p) :=
    (List.filter_map (f := entryCore) (p := fun e => e.port != p)).symm
  rw [commutes, rechecked_core, ← commutes, List.filter_filter, List.filter_map]
  have kept : h.table.filter ((fun e => e.port != p && decide (e.index ∉ (freedAt h p).map Entry.index)) ∘ tornEntry h p) =
      h.table.filter (fun e => e.port != p) := by
    refine List.filter_congr fun e member => ?_
    simp only [Function.comp, torn_entry_index, torn_entry_port]
    by_cases own : e.port = p
    · simp [own]
    · have stays : e.index ∉ (freedAt h p).map Entry.index := by
        intro gone
        obtain ⟨y, freed, same⟩ := List.mem_map.mp gone
        obtain ⟨inTable, mine⟩ := List.mem_filter.mp freed
        rw [List.inj_on_of_nodup_map law inTable member same] at mine
        simp [own] at mine
      simp [stays]
  rw [kept, List.map_map]
  refine List.map_congr_left fun e member => ?_
  have other : e.port ≠ p := by simpa using (List.mem_filter.mp member).2
  simp only [Function.comp, tornEntry, other, false_and, if_false]

/-! ### The whole hub after a teardown -/

/-- A teardown, but for the notices that the role is free. -/
theorem teardown_frame (h : Hub) (p : Port) : ∃ ms, h.teardown p = { tornHub h p with messages := ms } ∧
    ∀ q, ms.get q = if h.config.holder = some p ∧ ((tornHub h p).link q).state = .up then
      ((portReleased h p).layer q).give .controlChanged 0xFF none else (portReleased h p).layer q := by
  rw [teardown_eq]
  by_cases held : h.config.holder = some p
  · rw [if_pos held]
    refine ⟨_, rfl, fun q => (Hub.notifyUp_layer (tornHub h p) .controlChanged 0xFF q).trans ?_⟩
    simp only [held, true_and]
    rfl
  · rw [if_neg held]
    refine ⟨(portReleased h p).messages, rfl, fun q => ?_⟩
    rw [if_neg (fun both => held both.1)]
    rfl

theorem torn_hub_link (h : Hub) (p q : Port) : (tornHub h p).link q = if q = p then tornLink h p else h.link q := by
  obtain ⟨u, ms, frame, _⟩ := port_released_frame h p
  have links : (tornHub h p).links = h.links.set p (tornLink h p) := by
    rw [tornHub, frame]
    rfl
  rw [Hub.link, links, quad_get_set]
  rfl

/-- The message layer of the port itself after its teardown. -/
theorem released_own_layer (h : Hub) (p : Port) : (portReleased h p).layer p = tornLayer h p := by
  obtain ⟨more, same, nothing⟩ := released_layer h p p
  rw [same, nothing rfl, List.append_nil, rechecked_layer, if_pos rfl]
  exact unwatch_no_fences rfl _

theorem torn_layer_eq (h : Hub) (p : Port) : (h.teardown p).layer p = tornLayer h p := by
  obtain ⟨ms, same, layers⟩ := teardown_frame h p
  rw [same, show Hub.layer { tornHub h p with messages := ms } p = _ from layers p, if_neg, released_own_layer]
  rw [torn_hub_link, if_pos rfl]
  exact fun both => LinkState.noConfusion both.2

/-- What another port's message layer keeps. -/
theorem other_layer_kept {h : Hub} {p q : Port} (other : q ≠ p) :
    ((h.teardown p).layer q).tags = (h.layer q).tags ∧ ((h.teardown p).layer q).taken = (h.layer q).taken ∧
      ((h.teardown p).layer q).completed = (h.layer q).completed ∧
      ((h.teardown p).layer q).refusals = (h.layer q).refusals ∧
      ((h.teardown p).layer q).fences.map Fence.tag = (h.layer q).fences.map Fence.tag ∧
      (∃ more, ((h.teardown p).layer q).replies = (h.layer q).replies ++ more) ∧
      ((h.teardown p).layer q).notices = if h.config.holder = some p ∧ (h.link q).state = .up then
        ((h.layer q).give .controlChanged 0xFF none).notices else (h.layer q).notices := by
  obtain ⟨ms, same, layers⟩ := teardown_frame h p
  obtain ⟨more, released, _⟩ := released_layer h p q
  rw [rechecked_layer, if_neg other, unwatch_eq] at released
  rw [same, show Hub.layer { tornHub h p with messages := ms } q = _ from layers q, torn_hub_link, if_neg other, released]
  have tags : (h.layer q).fences.map (fun f => ({ f with watch := watchLeft ((freedAt h p).map Entry.index) f } : Fence).tag) =
      (h.layer q).fences.map Fence.tag := rfl
  split
  · exact ⟨rfl, rfl, rfl, rfl, (List.map_map ..).trans tags, ⟨_, List.append_assoc ..⟩, rfl⟩
  · exact ⟨rfl, rfl, rfl, rfl, (List.map_map ..).trans tags, ⟨_, List.append_assoc ..⟩, rfl⟩

/-- The units that a teardown leaves as they are, or changes at the port alone. -/
theorem teardown_units (h : Hub) (p : Port) : ∃ u ms, h.teardown p =
    { portRechecked h p with leases := u, messages := ms, rest := tornRest h p, config := tornConfig h p } ∧
      u = (portReleased h p).leases ∧ u.lapses = h.leases.lapses := by
  obtain ⟨ms, same, _⟩ := teardown_frame h p
  obtain ⟨u, ns, frame, lapses⟩ := port_released_frame h p
  refine ⟨u, ms, ?_, by rw [frame], lapses⟩
  rw [same, tornHub, frame]

theorem port_cleared_eq (h : Hub) (p : Port) : portCleared h p =
    { h with
      links := h.links.set p (tornLink h p)
      messages := h.messages.set p (tornLayer h p)
      leases := { h.leases with
        slots := h.leases.slots.map (fun (x : LeaseSlot) =>
          if x.lease.any (fun l => l.owner == p) = true then { x with lease := none } else x)
        waits := h.leases.waits.filter (fun w => w.port != p) }
      table := h.table.map (tornEntry h p) } := by
  have owned (x : LeaseSlot) : slotOwned p x = x.lease.any (fun l => l.owner == p) := by
    unfold slotOwned
    cases x.lease <;> rfl
  simp only [portCleared, owned]

/-- Settles O33: the port itself, the other ports and units, and the whole event. -/
theorem teardownLeavesNothingOfThePort : Obligations.TeardownLeavesNothingOfThePort := by
  refine ⟨fun h p => ?_, fun h p => ?_, fun h p law => ?_⟩
  · have links (q : Port) : (h.teardown p).link q = if q = p then tornLink h p else h.link q := by
      obtain ⟨ms, same, _⟩ := teardown_frame h p
      rw [← torn_hub_link, same]
      rfl
    have layer := torn_layer_eq h p
    obtain ⟨u, ms, same, leases, _⟩ := teardown_units h p
    refine ⟨(links p).trans (if_pos rfl), fun q other => (links q).trans (if_neg other),
      ⟨congrArg MessageLayer.tags layer, congrArg MessageLayer.replies layer, congrArg MessageLayer.fences layer,
        congrArg MessageLayer.notices layer⟩, ?_⟩
    rw [same]
    refine ⟨fun l stands => released_standing (h := h) ?_, fun w waits => released_waits (h := h) ?_,
      fun e left own => rechecked_torn left own, ?_, ?_, ?_, ?_⟩
    · obtain ⟨x, slot, held⟩ := stands
      exact ⟨x, leases ▸ slot, held⟩
    · exact leases ▸ waits
    · exact (quad_get_set _ _ _ _).trans (if_pos rfl)
    · intro w listed
      simpa using (List.mem_filter.mp listed).2
    · change (if h.config.holder = some p then none else h.config.holder) ≠ some p
      split
      · nofun
      · assumption
    · exact fun other => if_neg other
  · have others (q : Port) (other : q ≠ p) := other_layer_kept (h := h) other
    obtain ⟨u, ms, same, leases, lapses⟩ := teardown_units h p
    refine ⟨torn_layer_eq h p, fun q other => ?_, ?_⟩
    · obtain ⟨tags, taken, completed, refusals, fences, replies, notices⟩ := others q other
      refine ⟨tags, taken, completed, refusals, fences, replies, notices, ?_⟩
      rw [same]
      exact (quad_get_set _ _ _ _).trans (if_neg other)
    rw [same]
    refine ⟨fun law => rechecked_others p law, fun law l stands other => ?_, rfl, rfl, rfl, rfl, rfl, rfl, rfl, rfl, rfl,
      lapses, ?_, rfl⟩
    · obtain ⟨m, ⟨x, slot, held⟩, like⟩ := released_stands law stands other
      exact ⟨m, ⟨x, leases ▸ slot, held⟩, like⟩
    · have banks : (portRechecked h p).scheduler.banks = h.scheduler.banks.map (fun k =>
          { k with openedFor := k.openedFor.filter (fun i => decide (i ∉ (freedAt h p).map Entry.index)) }) := by
        rw [portRechecked, remove_entries_eq]
        rfl
      change (portRechecked h p).scheduler.banks.map _ = _
      rw [banks, List.map_map]
      rfl
  · have scanned : SlotsLaw (portRechecked h p).scanWaits := by
      obtain ⟨k, left, placed, _, same⟩ :=
        scan_placed [] (portRechecked h p).leases.waits (.refl (h := portRechecked h p)) (fun w hw => hw)
      rw [Hub.scanWaits, same]
      exact placed.slots_law (rechecked_law p law)
    have released : portReleased h p = (List.finRange 16).foldl Hub.grantIfDrained (portRechecked h p).scanWaits := by
      rw [portReleased, Hub.grantDrained, show (portRechecked h p).scanWaits.leases.slots.map LeaseSlot.id = _ from scanned]
    rw [teardown_eq, tornHub, released, portRechecked, port_cleared_eq]
    rfl

end Sys2Proof.Safety
end

section
/-! SUPPORT. What every event ends with, and a proof of the statement on it (sections 2.8, 3.2, 5.2 and 5.3). -/

namespace Sys2Proof.Safety

open Sys2Proof.Machine

/-! ### A change to SERVING -/

/-- An entry whose CHANNEL hold has cleared. -/
def channelCleared (e : Entry) : Entry := { e with holds := { e.holds with channel := false } }.promote

theorem channel_cleared_eq (e : Entry) : channelCleared e =
    { e with
      holds := { e.holds with channel := false }
      phase := if e.phase = .held ∧ e.holds.order = none ∧ e.holds.fencesAhead = 0 ∧ e.holds.lease = false then
        .queued else e.phase } := by
  unfold channelCleared
  rcases promote_cases { e with holds := { e.holds with channel := false } } with ⟨held, clear, promoted⟩ | ⟨kept, same⟩
  · simp only [Holds.isEmpty, Bool.and_eq_true, Option.isNone_iff_eq_none, beq_iff_eq, Bool.not_eq_true'] at held clear
    rw [promoted, if_pos ⟨held, clear.1.1.1, clear.1.1.2, clear.1.2⟩]
  · simp only [Holds.isEmpty, Bool.and_eq_true, Option.isNone_iff_eq_none, beq_iff_eq, Bool.not_eq_true'] at kept
    rw [same, if_neg (fun all => kept ⟨all.1, ⟨⟨all.2.1, all.2.2.1⟩, all.2.2.2⟩, trivial⟩)]

/-- The message layer of port `p` once the deferred WAKEs have been answered. -/
def wokenLayer (h : Hub) (p : Port) : MessageLayer :=
  { h.layer p with
    replies := (h.layer p).replies ++
      (h.rest.wakes.filter (fun w => w.1 == p)).map (fun w => PendingReply.wake w.2) }

/-- Every change of the channel to SERVING. -/
def served (h : Hub) : Hub :=
  { h with
    channel := .serving
    messages := quadOf (wokenLayer h)
    table := h.table.map channelCleared
    rest := { h.rest with abandoning := false, leaving := none, wakes := [] } }

theorem become_serving_eq (h : Hub) : h.becomeServing = served h := by
  obtain ⟨ms, same, layers⟩ := defer_wakes h.rest.wakes h
  have woken : ms = quadOf (wokenLayer h) := quad_ext fun p => (layers p).trans (quad_of_get (wokenLayer h) p).symm
  unfold Hub.becomeServing
  rw [same, woken]
  rfl

/-- The channel is SERVING, or ENTERING at once. -/
def servedTo (h : Hub) (c : Channel) : Hub := { served h with channel := c }

theorem served_to_layer (h : Hub) (c : Channel) (p : Port) : (servedTo h c).layer p = wokenLayer h p := quad_of_get _ p

theorem served_layer (h : Hub) (p : Port) : (served h).layer p = wokenLayer h p := quad_of_get _ p

/-! ### The rest unit's evaluation (R105, R108) -/

/-- The entry condition but for the channel (R105). -/
def Wanted (h : Hub) : Prop :=
  (∀ p, (h.link p).state = .up → h.rest.votes.get p = true) ∧ h.table = [] ∧ h.config.change = none

/-- The event ends ENTERING: entry is abandoned, no change is pending and no UPKEEP is in flight (R108, R112). -/
def EnteringEnds (h : Hub) : Prop :=
  h.channel = .entering ∧ (h.rest.abandoning = true ∨ ¬ Wanted h) ∧ h.config.change = none ∧
    h.scheduler.inFlight .upkeep = false

theorem wanted_iff (h : Hub) : h.restWanted = true ↔ Wanted h := rest_wanted_iff h

theorem evaluate_entry_eq (h : Hub) : h.evaluateEntry =
    { h with channel := if h.channel = .serving ∧ h.restWanted = true then .entering else h.channel } := by
  unfold Hub.evaluateEntry
  split <;> rfl

theorem evaluate_outside {h : Hub} (outside : h.channel ≠ .entering) : h.evaluateRest =
    { h with channel := if h.channel = .serving ∧ h.restWanted = true then .entering else h.channel } := by
  unfold Hub.evaluateRest
  rw [if_neg outside, evaluate_entry_eq]

theorem abandons_iff (h : Hub) :
    (h.rest.abandoning || !h.restWanted) = true ↔ h.rest.abandoning = true ∨ ¬ Wanted h := by
  rw [← wanted_iff]
  simp

theorem evaluate_stays {h : Hub} (entering : h.channel = .entering) (stays : ¬ EnteringEnds h) : h.evaluateRest =
    { h with rest := { h.rest with abandoning := h.rest.abandoning || !h.restWanted } } := by
  unfold Hub.evaluateRest
  rw [if_pos entering]
  refine if_neg fun ends => stays ⟨entering, (abandons_iff h).mp ends.1, ends.2.1, ends.2.2⟩

/-- The clearing of the CHANNEL holds leaves the entry condition as it is. -/
theorem rest_wanted_served (h : Hub) : (served h).restWanted = h.restWanted := by
  rw [Bool.eq_iff_iff, rest_wanted_iff, rest_wanted_iff]
  refine and_congr Iff.rfl (and_congr ?_ Iff.rfl)
  exact List.map_eq_nil_iff

theorem evaluate_ends {h : Hub} (ends : EnteringEnds h) : h.evaluateRest =
    servedTo h (if h.restWanted = true then .entering else .serving) := by
  obtain ⟨entering, abandons, unchanged, landed⟩ := ends
  unfold Hub.evaluateRest
  rw [if_pos entering]
  refine (if_pos ⟨(abandons_iff h).mpr abandons, unchanged, landed⟩).trans ?_
  rw [become_serving_eq, evaluate_entry_eq]
  have same : served { h with rest := { h.rest with abandoning := h.rest.abandoning || !h.restWanted } } = served h := rfl
  rw [same, rest_wanted_served]
  simp only [show (served h).channel = .serving from rfl, true_and]
  rfl

/-- The three ways in which an event can end. -/
theorem evaluate_cases (h : Hub) :
    (h.channel ≠ .entering ∧ ¬ EnteringEnds h ∧ h.evaluateRest =
      { h with channel := if h.channel = .serving ∧ h.restWanted = true then .entering else h.channel }) ∨
    (h.channel = .entering ∧ ¬ EnteringEnds h ∧ h.evaluateRest =
      { h with rest := { h.rest with abandoning := h.rest.abandoning || !h.restWanted } }) ∨
    (EnteringEnds h ∧ h.evaluateRest =
      servedTo h (if h.restWanted = true then .entering else .serving)) := by
  by_cases ends : EnteringEnds h
  · exact .inr (.inr ⟨ends, evaluate_ends ends⟩)
  · by_cases entering : h.channel = .entering
    · exact .inr (.inl ⟨entering, ends, evaluate_stays entering ends⟩)
    · exact .inl ⟨entering, ends, evaluate_outside entering⟩

/-! ### What the units present -/

theorem settle_parts (h : Hub) :
    (h.settle.channel = h.evaluateRest.channel ∧ h.settle.table = h.evaluateRest.table ∧
      h.settle.messages = h.evaluateRest.messages ∧
      h.settle.rest = { h.evaluateRest.rest with items := h.evaluateRest.restItems }) ∧
    h.settle.upkeep = { h.evaluateRest.upkeep with items := h.evaluateRest.upkeepItems } ∧
    h.settle.config = { h.evaluateRest.config with
      items := h.evaluateRest.configItems
      bringupItems := h.evaluateRest.bringupItems } ∧
    h.settle.links = h.evaluateRest.links.map (fun l => l.roomTimed h.evaluateRest.now) :=
  ⟨⟨rfl, rfl, rfl, rfl⟩, rfl, rfl, rfl⟩

/-- The flags that a close-all demand sets, or the withdrawal of the last one clears, leave what the items depend on. -/
theorem settle_closed (h : Hub) : h.settle.scheduler.allClosed = h.evaluateRest.scheduler.allClosed := by
  obtain ⟨a, b, c, d, f, presented⟩ := present_frame h.evaluateRest
  have banks : h.settle.scheduler.banks =
      h.evaluateRest.scheduler.banks.map (fun k => { k with closeRequested := f k }) := by
    rw [show h.settle.scheduler = h.evaluateRest.present.scheduler from rfl, presented]
  rw [Scheduler.allClosed, banks, List.all_map]
  rfl

/-- Every event ends with the items that the rules give. -/
theorem settle_items_law (h : Hub) : ItemsLaw h.settle := by
  refine ⟨rfl, ?_, rfl, rfl⟩
  have same : h.settle.restItems = h.evaluateRest.restItems := by
    unfold Hub.restItems
    rw [settle_closed]
    rfl
  rw [same]
  rfl

/-! ### The tables of items -/

theorem quiet_iff (h : Hub) :
    h.quiet = true ↔ ∀ e ∈ h.table, e.phase ≠ .queued ∧ (e.phase = .active → e.aborting ≠ none) := by
  rw [Hub.quiet, Bool.not_eq_true', ← Bool.not_eq_true, List.any_eq_true]
  simp only [servable_iff, not_exists, not_and, not_or, ne_eq]

theorem upkeep_table {h : Hub} (law : ItemsLaw h) : UpkeepTable h := by
  obtain ⟨items, _⟩ := law
  unfold Hub.upkeepItems at items
  refine ⟨fun outside => items.trans (if_neg outside), fun serving => ?_⟩
  rw [if_pos serving] at items
  simp only [items, ← quiet_iff]
  cases h.upkeep.level <;> cases h.quiet <;> simp [upkeepItemsFor, Items.none]

theorem rest_table {h : Hub} (law : ItemsLaw h) : RestTable h := by
  obtain ⟨_, items, _⟩ := law
  unfold Hub.restItems at items
  unfold RestTable
  simp only [items, ← all_closed_iff, ← in_flight_iff]
  refine ⟨fun entering unabandoned => ?_, fun entering abandoned => ?_, fun leaving step => ?_, fun leaving step => ?_,
    fun outside none_left => ?_⟩
  · simp [entering, unabandoned, Items.none, and_assoc]
  · simp [entering, abandoned]
  · simp [leaving, step, Items.none]
  · simp [leaving, step, Items.none]
  · split
    · next entering => exact absurd entering outside
    · next leaving step => simp [leaving, step] at none_left
    · next leaving step => simp [leaving, step] at none_left
    · rfl

theorem change_table {h : Hub} (law : ItemsLaw h) : ChangeTable h := by
  obtain ⟨_, _, items, _⟩ := law
  unfold Hub.configItems at items
  unfold ChangeTable
  simp only [items]
  refine ⟨fun unchanged => by simp [unchanged], fun pending => ?_⟩
  rw [if_pos (Option.isSome_iff_ne_none.mpr pending)]
  simp [Items.none, idle_iff]

theorem bringup_table {h : Hub} (law : ItemsLaw h) : BringupTable h := by
  obtain ⟨_, _, _, items⟩ := law
  unfold Hub.bringupItems at items
  unfold BringupTable
  simp only [items, ← in_flight_iff]
  refine ⟨fun absent => by simp [absent], fun r record => ?_⟩
  simp only [record]
  refine ⟨fun phase => ?_, fun phase flies => ?_, fun phase lands => ?_, fun phase => ?_, fun phase => ?_⟩
  · simp [phase]
  · simp [phase, flies]
  · simp [phase, lands]
  · simp [phase, Items.none]
  · simp [phase, Items.none]

/-! ### The close requested flags (R50) -/

/-- A close-all demand is presented that the hub did not present before. -/
def newlyClosing (h g : Hub) : Bool :=
  (g.upkeep.items.closeAll && !h.upkeep.items.closeAll) || (g.rest.items.closeAll && !h.rest.items.closeAll) ||
    (g.config.bringupItems.closeAll && !h.config.bringupItems.closeAll)

/-- A bank's record after the flags have been set or cleared. -/
def flagged (newly withdrawn : Bool) (k : Bank) : Bank :=
  if newly = true then if k.state = .opening ∨ k.state = .opened then { k with closeRequested := true } else k
  else if withdrawn = true then { k with closeRequested := false }
  else k

theorem settle_scheduler (h : Hub) : h.settle.scheduler = { h.scheduler with
    banks := h.scheduler.banks.map (flagged (newlyClosing h h.settle) (!h.settle.closeAll && h.closeAll)) } := by
  obtain ⟨c, ms, t, r, same, _, _, items⟩ := evaluate_rest_frame h
  have before : newlyClosing h.evaluateRest h.settle = newlyClosing h h.settle := by
    unfold newlyClosing
    rw [same]
    simp only [items]
  have stood : h.evaluateRest.closeAll = h.closeAll := by
    unfold Hub.closeAll
    rw [same]
    simp only [items]
  have presented : h.settle.scheduler = { h.evaluateRest.scheduler with
      banks := h.evaluateRest.scheduler.banks.map
        (flagged (newlyClosing h.evaluateRest h.settle) (!h.settle.closeAll && h.evaluateRest.closeAll)) } := rfl
  rw [presented, before, stood]
  rw [show h.evaluateRest.scheduler = h.scheduler by rw [same]]

theorem settle_bank {h : Hub} {b : Nat} {k : Bank} (known : h.scheduler.banks[b]? = some k) :
    h.settle.scheduler.banks[b]? = some (flagged (newlyClosing h h.settle) (!h.settle.closeAll && h.closeAll) k) := by
  rw [settle_scheduler]
  simp only [List.getElem?_map, known, Option.map_some]

theorem flagged_newly (withdrawn : Bool) (k : Bank) : flagged true withdrawn k =
    { k with closeRequested := k.closeRequested || k.state == .opening || k.state == .opened } := by
  have closed : (BankState.closed == BankState.opening) = false ∧ (BankState.closed == BankState.opened) = false ∧
      (BankState.closing == BankState.opening) = false ∧ (BankState.closing == BankState.opened) = false := by decide
  obtain ⟨state, row, openedFor, openMark, writeMark, closeRequested, doneAt⟩ := k
  cases state <;> simp [flagged, closed]

theorem close_all_iff (h : Hub) : h.closeAll = true ↔ h.upkeep.items.closeAll = true ∨ h.rest.items.closeAll = true ∨
    h.config.bringupItems.closeAll = true := by simp [Hub.closeAll, or_assoc]

theorem newly_closing_iff (h g : Hub) : newlyClosing h g = true ↔
    (g.upkeep.items.closeAll = true ∧ h.upkeep.items.closeAll = false) ∨
      (g.rest.items.closeAll = true ∧ h.rest.items.closeAll = false) ∨
      (g.config.bringupItems.closeAll = true ∧ h.config.bringupItems.closeAll = false) := by
  simp [newlyClosing, or_assoc]

theorem settle_link (h : Hub) (p : Port) : h.settle.link p = (h.link p).roomTimed h.now := by
  obtain ⟨c, ms, t, r, same, _⟩ := evaluate_rest_frame h
  rw [Hub.link, (settle_parts h).2.2.2, quad_get_map, same]
  rfl

/-- The room timer at the end of an event (R175). -/
theorem settle_room_timer (h : Hub) (p : Port) : (h.settle.link p).roomTimer =
    if (h.link p).replay = [] ∧ (h.link p).outbound ≠ [] ∧ ((h.link p).farRoom = 0 ∨ (h.link p).fullWait = true) then
      some ((h.link p).roomTimer.getD (h.now + 12800)) else none := by
  rw [settle_link]
  unfold Link.roomTimed
  have runs : ((h.link p).replay.isEmpty && !(h.link p).outbound.isEmpty && ((h.link p).farRoom == 0 || (h.link p).fullWait)) =
      true ↔ (h.link p).replay = [] ∧ (h.link p).outbound ≠ [] ∧ ((h.link p).farRoom = 0 ∨ (h.link p).fullWait = true) := by
    simp [and_assoc]
  by_cases go : (h.link p).replay = [] ∧ (h.link p).outbound ≠ [] ∧
      ((h.link p).farRoom = 0 ∨ (h.link p).fullWait = true)
  · rw [if_pos go, if_pos (runs.mpr go)]
    cases (h.link p).roomTimer <;> rfl
  · rw [if_neg go, if_neg (fun all => go (runs.mp all))]

/-! ### The channel at the end of an event -/

/-- The message layers change by the answers to the deferred WAKEs alone. -/
theorem settle_layer (h : Hub) (p : Port) : h.settle.layer p =
    { h.layer p with replies := (h.settle.layer p).replies } := by
  have layer : h.settle.layer p = h.evaluateRest.layer p := rfl
  rw [layer]
  rcases evaluate_cases h with ⟨_, _, same⟩ | ⟨_, _, same⟩ | ⟨_, same⟩
  · rw [same]
    rfl
  · rw [same]
    rfl
  · rw [same, served_to_layer]
    rfl

theorem settle_votes (h : Hub) : h.settle.rest.votes = h.rest.votes := by
  obtain ⟨c, ms, t, r, a, i, j, f, same, _, votes⟩ := settle_frame h
  rw [same, votes]

/-- The channel at the end of an event (R105, R108, R112). -/
theorem settle_channel (h : Hub) :
    let wanted := (∀ p, (h.link p).state = .up → h.rest.votes.get p = true) ∧ h.table = [] ∧ h.config.change = none
    let stuck := h.config.change ≠ none ∨ h.scheduler.inFlight .upkeep = true
    (h.channel ≠ .serving → h.channel ≠ .entering → h.settle.channel = h.channel) ∧
      (h.channel = .serving → h.settle.channel = if wanted then .entering else .serving) ∧
      (h.channel = .entering → h.rest.abandoning = false → wanted → h.settle.channel = .entering) ∧
      (h.channel = .entering → (h.rest.abandoning = true ∨ ¬ wanted) → stuck →
        h.settle.channel = .entering ∧ h.settle.rest.abandoning = true) ∧
      (h.channel = .entering → (h.rest.abandoning = true ∨ ¬ wanted) → ¬ stuck →
        h.settle.channel = (if wanted then .entering else .serving) ∧ h.settle.rest.abandoning = false ∧
          h.settle.rest.wakes = [] ∧ ∀ p, (h.settle.layer p).replies = (h.layer p).replies ++
            (h.rest.wakes.filter (fun w => w.1 == p)).map (fun w => PendingReply.wake w.2)) := by
  intro wanted stuck
  have holds : h.restWanted = true ↔ wanted := rest_wanted_iff h
  obtain ⟨⟨channel, _, messages, rest⟩, _⟩ := settle_parts h
  refine ⟨fun unserving outside => ?_, fun serving => ?_, fun entering unabandoned wants => ?_,
    fun entering abandons waits => ?_, fun entering abandons free => ?_⟩
  · rw [channel, evaluate_outside outside]
    exact if_neg (fun both => unserving both.1)
  · rw [channel, evaluate_outside (by rw [serving]; nofun)]
    simp only [serving, true_and, holds]
  · have stays : ¬ EnteringEnds h := by
      rintro ⟨_, abandoned | unwanted, _⟩
      · exact Bool.false_ne_true (unabandoned.symm.trans abandoned)
      · exact unwanted wants
    rw [channel, evaluate_stays entering stays]
    exact entering
  · have stays : ¬ EnteringEnds h := by
      rintro ⟨_, _, unchanged, landed⟩
      rcases waits with changed | flies
      · exact changed unchanged
      · exact Bool.false_ne_true (landed.symm.trans flies)
    rw [channel, rest, evaluate_stays entering stays]
    exact ⟨entering, (abandons_iff h).mpr abandons⟩
  · obtain ⟨unchanged, landed⟩ := not_or.mp free
    have ends : EnteringEnds h := ⟨entering, abandons, not_not.mp unchanged, Bool.eq_false_iff.mpr landed⟩
    have layer (p : Port) : h.settle.layer p = wokenLayer h p := by
      rw [← served_to_layer h, ← evaluate_ends ends]
      rfl
    rw [channel, rest, evaluate_ends ends]
    refine ⟨?_, rfl, rfl, fun p => congrArg MessageLayer.replies (layer p)⟩
    simp only [servedTo, holds]

/-- Settles O51: the channel, the entries, the items with the flags and the room timers, and a change to SERVING. -/
theorem everyEventEndsWithTheEntryCondition : Obligations.EveryEventEndsWithTheEntryCondition := by
  refine ⟨fun h => ?_, fun h => ?_, fun h => ?_, fun h => ?_⟩
  · obtain ⟨outside, serving, goes, stuck, ends⟩ := settle_channel h
    refine ⟨outside, serving, goes, stuck, ends, settle_items_law h, settle_dram h, settle_windows h, settle_leases h,
      settle_check h, settle_now h, ?_, fun p => ?_, fun p => ?_, settle_index h⟩
    · obtain ⟨c, ms, t, r, a, i, j, f, same, _⟩ := settle_frame h
      rw [same]
    · obtain ⟨x, timed⟩ := room_timed_frame (h.link p) h.now
      rw [settle_link, timed]
    · exact (congrArg MessageLayer.tags (settle_layer h p) :)
  · obtain ⟨⟨_, table, messages, rest⟩, _⟩ := settle_parts h
    refine ⟨settle_resetLow h, settle_votes h, fun p => ?_, fun stays => ?_, fun still => ?_, fun ends => ?_⟩
    · rw [settle_layer]
    · rcases evaluate_cases h with ⟨_, _, same⟩ | ⟨_, _, same⟩ | ⟨ends, _⟩
      · rw [table, messages, rest, same]
        exact ⟨rfl, rfl, rfl⟩
      · rw [table, messages, rest, same]
        exact ⟨rfl, rfl, rfl⟩
      · exact absurd ends stays
    · rcases evaluate_cases h with ⟨_, _, same⟩ | ⟨entering, _, same⟩ | ⟨⟨entering, abandons, _⟩, _⟩
      · rw [rest, same]
      · obtain ⟨unabandoned, wanted⟩ := still.resolve_left (fun outside => outside entering)
        have holds : h.restWanted = true := (wanted_iff h).mpr wanted
        rw [rest, same]
        simp [holds]
      · obtain ⟨unabandoned, wanted⟩ := still.resolve_left (fun outside => outside entering)
        rcases abandons with abandoned | unwanted
        · exact absurd (unabandoned.symm.trans abandoned) Bool.false_ne_true
        · exact absurd wanted unwanted
    · rw [table, messages, rest, evaluate_ends ends, become_serving_eq]
      exact ⟨rfl, rfl, rfl⟩
  · refine ⟨upkeep_table (settle_items_law h), rest_table (settle_items_law h), change_table (settle_items_law h),
      bringup_table (settle_items_law h), ?_, fun b k known => ?_, ?_, ?_, fun p => settle_room_timer h p⟩
    · rw [settle_scheduler]
      exact List.length_map _
    · rw [settle_bank known, ← newly_closing_iff, ← close_all_iff, ← close_all_iff]
      refine ⟨fun newly => ?_, fun stood falls => ?_, fun old stays => ?_⟩
      · rw [newly, flagged_newly]
      · have old : newlyClosing h h.settle = false := by
          refine Bool.eq_false_iff.mpr fun newly => falls ((close_all_iff _).mpr ?_)
          rcases (newly_closing_iff _ _).mp newly with ⟨now, _⟩ | ⟨now, _⟩ | ⟨now, _⟩
          · exact .inl now
          · exact .inr (.inl now)
          · exact .inr (.inr now)
        rw [old, stood, Bool.eq_false_iff.mpr falls]
        rfl
      · have kept : (!h.settle.closeAll && h.closeAll) = false := by
          rcases stays with stands | unstood
          · rw [stands]
            rfl
          · rw [Bool.eq_false_iff.mpr unstood, Bool.and_false]
        rw [kept, Bool.eq_false_iff.mpr old]
        rfl
    · rw [settle_scheduler]
    · obtain ⟨c, ms, t, r, same, _⟩ := evaluate_rest_frame h
      rw [(settle_parts h).2.1, same]
  · rw [become_serving_eq]
    refine ⟨rfl, rfl, List.map_congr_left fun e _ => channel_cleared_eq e, fun p => served_layer h p, rfl⟩

end Sys2Proof.Safety
end

section
/-! SUPPORT. A proof of the statement on frames and the line coding (chapters 9 to 11). -/

namespace Sys2Proof.Safety

open Sys2Proof.Machine

/-! ### The frame check (R153, R169) -/

theorem frame_bytes_eq (type seq : Byte) (payload : List Byte) : frameBytes type seq payload =
    [type, seq] ++ leBytes 2 payload.length ++ payload ++
      leBytes 2 (crc16 ([type, seq] ++ leBytes 2 payload.length ++ payload)).toNat := by
  simp only [frameBytes, List.cons_append, List.nil_append]

theorem parse_frame_bytes {type seq : Byte} {payload : List Byte} (short : payload.length < 65536) :
    parseFrame (frameBytes type seq payload) = frameBody type seq payload := by
  obtain ⟨l0, l1, spelled⟩ : ∃ l0 l1, leBytes 2 payload.length = [l0, l1] := ⟨_, _, rfl⟩
  have length : leNat [l0, l1] = payload.length := by
    rw [← spelled, le_nat_le_bytes]
    exact Nat.mod_eq_of_lt short
  simp only [frameBytes, spelled, List.cons_append, List.nil_append, parseFrame, length, List.take_left', List.drop_left']
  exact if_pos ⟨by simp, trivial⟩

/-- A frame that passes the check on its length and its CRC is the frame of its type, sequence and payload. -/
theorem parse_frame_some {bytes : List Byte} {f : FrameBody} (parsed : parseFrame bytes = some f) :
    ∃ type seq payload, bytes = frameBytes type seq payload ∧ frameBody type seq payload = some f := by
  unfold parseFrame at parsed
  split at parsed
  · next type seq l0 l1 rest =>
    simp only at parsed
    split at parsed
    · next good =>
      obtain ⟨length, crc⟩ := good
      refine ⟨type, seq, rest.take (leNat [l0, l1]), ?_, parsed⟩
      have taken : (rest.take (leNat [l0, l1])).length = leNat [l0, l1] := by
        rw [List.length_take]
        omega
      simp only [frameBytes, taken, two_bytes, List.cons_append, List.nil_append, ← crc, List.take_append_drop]
    · cases parsed
  · cases parsed

/-- What a frame says, by its type and its payload. -/
def FrameSays (type seq : Byte) (payload : List Byte) : FrameBody → Prop
  | .message n m => type = 1 ∧ seq = n ∧ payload = m ∧ payload.length ≤ 272
  | .ack n room => type = 2 ∧ payload = [n, BitVec.ofNat 8 room] ∧ room ≤ 4
  | .nak e reason => type = 3 ∧ payload = [e, reason.code]
  | .align => type = 4 ∧ payload = []
  | .ready room => type = 5 ∧ payload = [BitVec.ofNat 8 room] ∧ room ≤ 4

theorem type_of_code {type : Byte} {n : Nat} (code : type.toNat = n) : type = BitVec.ofNat 8 n := by
  rw [← code, BitVec.ofNat_toNat, BitVec.setWidth_eq]

/-! `frameBody` by type: a match on numbers whose cases are said here once. -/

theorem frame_body_message (seq : Byte) (payload : List Byte) :
    frameBody 1 seq payload = if payload.length ≤ 272 then some (.message seq payload) else none := rfl

theorem frame_body_ack (seq n room : Byte) :
    frameBody 2 seq [n, room] = if room.toNat ≤ 4 then some (.ack n room.toNat) else none := rfl

theorem frame_body_ready (seq room : Byte) :
    frameBody 5 seq [room] = if room.toNat ≤ 4 then some (.ready room.toNat) else none := rfl

/-- A payload of exactly `k` bytes. -/
theorem frame_body_two {seq : Byte} {payload : List Byte} {f : FrameBody}
    (body : frameBody 2 seq payload = some f ∨ frameBody 3 seq payload = some f) : ∃ a b, payload = [a, b] := by
  obtain _ | ⟨a, _ | ⟨b, _ | ⟨c, rest⟩⟩⟩ := payload
  · rcases body with body | body <;> cases (show none = some f from body)
  · rcases body with body | body <;> cases (show none = some f from body)
  · exact ⟨a, b, rfl⟩
  · rcases body with body | body <;> cases (show none = some f from body)

theorem frame_body_none {seq : Byte} {payload : List Byte} {f : FrameBody} (body : frameBody 4 seq payload = some f) :
    payload = [] ∧ f = .align := by
  obtain _ | ⟨a, rest⟩ := payload
  · exact ⟨rfl, (Option.some.inj body).symm⟩
  · cases (show none = some f from body)

theorem frame_body_one {seq : Byte} {payload : List Byte} {f : FrameBody} (body : frameBody 5 seq payload = some f) :
    ∃ a, payload = [a] := by
  obtain _ | ⟨a, _ | ⟨b, rest⟩⟩ := payload
  · cases (show none = some f from body)
  · exact ⟨a, rfl⟩
  · cases (show none = some f from body)

/-- The code of a NAK reason is 1, 2 or 3. -/
theorem frame_body_nak {seq e reason : Byte} {f : FrameBody} (body : frameBody 3 seq [e, reason] = some f) :
    ∃ r : NakReason, reason = r.code ∧ f = .nak e r := by
  have named : (match reason.toNat with
      | 1 => some (FrameBody.nak e .corrupt)
      | 2 => some (FrameBody.nak e .order)
      | 3 => some (FrameBody.nak e .full)
      | _ => none) = some f := body
  split at named
  · next code => exact ⟨.corrupt, type_of_code code, (Option.some.inj named).symm⟩
  · next code => exact ⟨.order, type_of_code code, (Option.some.inj named).symm⟩
  · next code => exact ⟨.full, type_of_code code, (Option.some.inj named).symm⟩
  · cases named

theorem frame_body_type {type seq : Byte} {payload : List Byte} {f : FrameBody}
    (body : frameBody type seq payload = some f) : type = 1 ∨ type = 2 ∨ type = 3 ∨ type = 4 ∨ type = 5 := by
  have codes : ∀ k, type.toNat = k → k = 1 ∨ k = 2 ∨ k = 3 ∨ k = 4 ∨ k = 5 := by
    intro k code
    unfold frameBody at body
    rw [code] at body
    rcases k with _ | _ | _ | _ | _ | _ | k
    · cases (show none = some f from body)
    · simp
    · simp
    · simp
    · simp
    · simp
    · cases (show none = some f from body)
  rcases codes _ rfl with code | code | code | code | code
  · exact .inl (type_of_code code)
  · exact .inr (.inl (type_of_code code))
  · exact .inr (.inr (.inl (type_of_code code)))
  · exact .inr (.inr (.inr (.inl (type_of_code code))))
  · exact .inr (.inr (.inr (.inr (type_of_code code))))

theorem frame_body_iff (type seq : Byte) (payload : List Byte) (f : FrameBody) :
    frameBody type seq payload = some f ↔ FrameSays type seq payload f := by
  constructor
  · intro body
    rcases frame_body_type body with rfl | rfl | rfl | rfl | rfl
    · rw [frame_body_message, Option.ite_none_right_eq_some] at body
      obtain ⟨short, same⟩ := body
      cases same
      exact ⟨rfl, rfl, rfl, short⟩
    · obtain ⟨n, room, rfl⟩ := frame_body_two (.inl body)
      rw [frame_body_ack, Option.ite_none_right_eq_some] at body
      obtain ⟨small, same⟩ := body
      cases same
      exact ⟨rfl, by rw [BitVec.ofNat_toNat, BitVec.setWidth_eq], small⟩
    · obtain ⟨e, reason, rfl⟩ := frame_body_two (.inr body)
      obtain ⟨r, rfl, rfl⟩ := frame_body_nak body
      exact ⟨rfl, rfl⟩
    · obtain ⟨rfl, rfl⟩ := frame_body_none body
      exact ⟨rfl, rfl⟩
    · obtain ⟨room, rfl⟩ := frame_body_one body
      rw [frame_body_ready, Option.ite_none_right_eq_some] at body
      obtain ⟨small, same⟩ := body
      cases same
      exact ⟨rfl, by rw [BitVec.ofNat_toNat, BitVec.setWidth_eq], small⟩
  · have rooms {room : Nat} (small : room ≤ 4) : (BitVec.ofNat 8 room).toNat = room :=
      (BitVec.toNat_ofNat room 8).trans (Nat.mod_eq_of_lt (by omega))
    cases f with
    | message n m =>
      rintro ⟨rfl, rfl, rfl, short⟩
      rw [frame_body_message, if_pos short]
    | ack n room =>
      rintro ⟨rfl, rfl, small⟩
      rw [frame_body_ack, rooms small, if_pos small]
    | nak e reason =>
      rintro ⟨rfl, rfl⟩
      cases reason <;> rfl
    | align =>
      rintro ⟨rfl, rfl⟩
      rfl
    | ready room =>
      rintro ⟨rfl, rfl, small⟩
      rw [frame_body_ready, rooms small, if_pos small]

theorem says_short {type seq : Byte} {payload : List Byte} {f : FrameBody} (meaning : FrameSays type seq payload f) :
    payload.length ≤ 272 := by
  cases f with
  | message n m => exact meaning.2.2.2
  | ack n room =>
    obtain ⟨_, rfl, _⟩ := meaning
    exact (by decide : 2 ≤ 272)
  | nak e reason =>
    obtain ⟨_, rfl⟩ := meaning
    exact (by decide : 2 ≤ 272)
  | align =>
    obtain ⟨_, rfl⟩ := meaning
    exact Nat.zero_le _
  | ready room =>
    obtain ⟨_, rfl, _⟩ := meaning
    exact (by decide : 1 ≤ 272)

/-- The good frames. -/
theorem parse_frame_iff (bytes : List Byte) (f : FrameBody) : parseFrame bytes = some f ↔
    ∃ type seq payload, bytes = frameBytes type seq payload ∧ FrameSays type seq payload f := by
  constructor
  · intro parsed
    obtain ⟨type, seq, payload, spelled, body⟩ := parse_frame_some parsed
    exact ⟨type, seq, payload, spelled, (frame_body_iff ..).mp body⟩
  · rintro ⟨type, seq, payload, rfl, meaning⟩
    rw [parse_frame_bytes (lt_of_le_of_lt (says_short meaning) (by decide))]
    exact (frame_body_iff ..).mpr meaning

theorem frame_bytes_length (type seq : Byte) (payload : List Byte) :
    (frameBytes type seq payload).length = payload.length + 6 := by
  rw [frame_bytes_eq]
  simp only [List.length_append, List.length_cons, List.length_nil, le_bytes_length]
  omega

/-! ### The CRC (R153) -/

/-- One bit into the CRC register, place by place. -/
theorem crc_bit_place (r : BitVec 16) (b : Bool) {i : Nat} (inside : i < 16) : (crcBit r b).getLsbD i =
    ((decide (1 ≤ i) && r.getLsbD (i - 1)) ^^ ((r.getLsbD 15 ^^ b) && decide (i = 0 ∨ i = 5 ∨ i = 12))) := by
  have shifted : (r <<< 1).getLsbD i = (decide (1 ≤ i) && r.getLsbD (i - 1)) := by
    rw [BitVec.getLsbD_shiftLeft]
    by_cases low : i < 1
    · simp [low]
    · simp [low, inside]
      omega
  have generator : (0x1021#16).getLsbD i = decide (i = 0 ∨ i = 5 ∨ i = 12) := by
    interval_cases i <;> rfl
  have top : r.msb = r.getLsbD 15 := by
    rw [BitVec.msb_eq_getLsbD_last]
  unfold crcBit
  rw [top]
  by_cases differ : r.getLsbD 15 = b
  · rw [if_neg (by rw [differ, bne_self_eq_false]; exact Bool.false_ne_true), shifted, differ]
    simp
  · rw [if_pos (by simpa using differ), BitVec.getLsbD_xor, shifted, generator]
    have one : (r.getLsbD 15 ^^ b) = true := by
      rw [bne_iff_ne]
      exact differ
    rw [one, Bool.true_and]

theorem crc_by_bits (bytes : List Byte) : crc16 bytes =
    (bytes.flatMap (fun x => [7, 6, 5, 4, 3, 2, 1, 0].map x.getLsbD)).foldl crcBit 0xFFFF := by
  rw [List.foldl_flatMap]
  rfl

/-! ### The line coding (R181) -/

theorem hear_idle (r : Receiver) (line : List LineSymbol) : r.hear (.idle :: line) = r.hear line := by
  have idle : r.next .idle = (none, r) := by cases r <;> rfl
  cases line with
  | nil => simp [Receiver.hear, idle]
  | cons x line => exact hear_step idle (by simp)

theorem hear_idles (r : Receiver) (n : Nat) : r.hear (List.replicate n .idle) = none := by
  induction n with
  | zero => rfl
  | succ n ih => rw [List.replicate_succ, hear_idle, ih]

/-- Bytes that fit the longest frame join the frame in progress. -/
theorem hear_within {bytes : List Byte} (started : List Byte) {rest : List LineSymbol}
    (fits : started.length + bytes.length ≤ 278) (more : rest ≠ []) :
    (Receiver.within started).hear (bytes.map LineSymbol.data ++ rest) =
      (Receiver.within (started ++ bytes)).hear rest := by
  induction bytes generalizing started with
  | nil => rw [List.map_nil, List.nil_append, List.append_nil]
  | cons b bytes ih =>
    rw [List.length_cons] at fits
    have joins : (Receiver.within started).next (.data b) = (none, .within (started ++ [b])) :=
      if_pos (show started.length < 278 by omega)
    rw [List.map_cons, List.cons_append, hear_step joins (by simp [more]),
      ih _ (by rw [List.length_append, List.length_singleton]; omega), List.append_assoc, List.singleton_append]

/-- Bytes without a start mark before them. -/
theorem hear_stray (bytes : List Byte) {rest : List LineSymbol} (more : rest ≠ []) :
    Receiver.stray.hear (bytes.map LineSymbol.data ++ rest) = Receiver.stray.hear rest := by
  induction bytes with
  | nil => rfl
  | cons b bytes ih =>
    have stays : Receiver.stray.next (.data b) = (none, .stray) := rfl
    rw [List.map_cons, List.cons_append, hear_step stays (by simp [more]), ih]

/-- A start mark begins a frame. -/
theorem hear_start {line : List LineSymbol} (more : line ≠ []) :
    Receiver.between.hear (.startMark :: line) = (Receiver.within []).hear line :=
  hear_step rfl more

theorem hear_overlong {bytes : List Byte} (long : bytes.length = 279) :
    Receiver.between.hear (.startMark :: bytes.map LineSymbol.data) = some (.overlong, .waiting) := by
  have split : bytes = bytes.take 278 ++ [bytes[278]] := by
    rw [← List.take_append_getElem (by omega)]
    simp [long]
  have full : (bytes.take 278).length = 278 := by
    rw [List.length_take]
    omega
  rw [split, List.map_append, hear_start (by simp), hear_within [] (by rw [full]; simp) (by simp), List.map_singleton,
    List.nil_append]
  exact hear_last (if_neg (by rw [full]; decide))

/-- Nothing comes of a frame that ran on before the next start mark. -/
theorem hear_waiting {line : List LineSymbol} (unmarked : ∀ x ∈ line, x ≠ .startMark) (rest : List LineSymbol) :
    Receiver.waiting.hear line = none ∧
      Receiver.waiting.hear (line ++ .startMark :: rest) = (Receiver.within []).hear rest := by
  induction line with
  | nil =>
    refine ⟨rfl, ?_⟩
    cases rest with
    | nil => rfl
    | cons y rest => exact hear_step rfl (by simp)
  | cons x line ih =>
    have waits : Receiver.waiting.next x = (none, .waiting) := by
      cases x with
      | startMark => exact absurd rfl (unmarked _ List.mem_cons_self)
      | endMark => rfl
      | idle => rfl
      | data b => rfl
    obtain ⟨nothing, begins⟩ := ih fun y hy => unmarked y (List.mem_cons_of_mem _ hy)
    refine ⟨?_, by rw [List.cons_append, hear_step waits (by simp), begins]⟩
    cases line with
    | nil => simp [Receiver.hear, waits]
    | cons y line => rw [hear_step waits (by simp), nothing]

/-- Where a frame event leaves the receiving side. -/
def leavesAt : LineFrame → Receiver
  | .delimited _ => .between
  | .cutShort => .within []
  | .stray => .within []
  | .overlong => .waiting

theorem next_leaves {r t : Receiver} {x : LineSymbol} {f : LineFrame} (event : r.next x = (some f, t)) :
    t = leavesAt f := by
  cases x with
  | idle => cases r <;> cases event
  | startMark =>
    cases r with
    | between => cases event
    | stray => cases event; rfl
    | within bytes => cases event; rfl
    | waiting => cases event
  | endMark =>
    cases r with
    | between => cases event
    | stray => cases event
    | within bytes => cases event; rfl
    | waiting => cases event
  | data b =>
    cases r with
    | between => cases event
    | stray => cases event
    | within bytes =>
      have runs : (if bytes.length < longestFrame then (none, .within (bytes ++ [b])) else (some .overlong, .waiting)) =
        (some f, t) := event
      split at runs
      · cases runs
      · cases runs; rfl
    | waiting => cases event

theorem hear_leaves {r t : Receiver} {line : List LineSymbol} {f : LineFrame} (event : r.hear line = some (f, t)) :
    t = leavesAt f := by
  induction line generalizing r with
  | nil => cases event
  | cons z line ih =>
    rcases hear_cases event with ⟨x, same, next⟩ | ⟨x, y, rest, u, same, _, later⟩
    · exact next_leaves next
    · cases same
      exact ih later

/-- A frame event comes with its last symbol. -/
theorem hear_beyond {r t : Receiver} {line rest : List LineSymbol} {f : LineFrame} (event : r.hear line = some (f, t))
    (more : rest ≠ []) : r.hear (line ++ rest) = none := by
  induction line generalizing r with
  | nil => cases event
  | cons z line ih =>
    rcases hear_cases event with ⟨x, same, next⟩ | ⟨x, y, tail, u, same, next, later⟩
    · cases same
      cases rest with
      | nil => exact absurd rfl more
      | cons y rest => simp [Receiver.hear, next]
    · cases same
      rw [List.cons_append, hear_step next (by simp), ih later]

/-- A whole frame on the line. -/
theorem hear_frame {bytes : List Byte} (fits : bytes.length ≤ 278) :
    Receiver.between.hear (lineOf bytes) = some (.delimited bytes, .between) := by
  rw [lineOf, hear_start (by simp), hear_within [] (by simpa using fits) (by simp), List.nil_append]
  exact hear_last rfl

/-- The frame check finds nothing. -/
theorem line_corrupt_iff (bytes : List Byte) : lineCorrupt (.delimited bytes) = true ↔ parseFrame bytes = none :=
  Option.isNone_iff_eq_none

/-- Settles O52: frames and their check, the line coding, numbers, the CRC, and the layouts. -/
theorem framesReadBackWhatTheyCarry : Obligations.FramesReadBackWhatTheyCarry := by
  refine ⟨fun f fits => ?_, fun bytes => ⟨fun fits => ⟨hear_frame fits, ?_, ?_⟩, fun some => ?_, hear_overlong⟩,
    fun r line rest f t => ⟨⟨hear_idle r line, hear_idles r⟩, fun unmarked => hear_waiting unmarked rest,
      fun event => ⟨(hear_leaves event).trans (by cases f <;> rfl), fun more => hear_beyond event more⟩⟩,
    ⟨fun k n => ⟨le_bytes_length k n, fun i inside => le_bytes_getElem inside⟩, rfl, fun b bs => rfl⟩,
    ⟨fun r b i inside => crc_bit_place r b inside, crc_by_bits⟩, frame_bytes_eq,
    fun n payload room reason => ⟨rfl, rfl, rfl, rfl, rfl, rfl, rfl, rfl⟩, fun bytes f => ?_, line_corrupt_iff, rfl, rfl,
    rfl⟩
  · have spelled : ∃ type seq payload, f.bytes = frameBytes type seq payload ∧ FrameSays type seq payload f := by
      cases f with
      | message n m => exact ⟨1, n, m, rfl, rfl, rfl, rfl, fits⟩
      | ack n room => exact ⟨2, 0, _, rfl, rfl, rfl, fits⟩
      | nak e reason => exact ⟨3, 0, _, rfl, rfl, rfl⟩
      | align => exact ⟨4, 0, _, rfl, rfl, rfl⟩
      | ready room => exact ⟨5, 0, _, rfl, rfl, rfl, fits⟩
    refine ⟨(parse_frame_iff _ _).mpr spelled, hear_frame ?_⟩
    obtain ⟨type, seq, payload, same, meaning⟩ := spelled
    have short := says_short meaning
    rw [same, frame_bytes_length]
    omega
  · rw [hear_within [] (by simpa using fits) (by simp), List.nil_append]
    exact hear_last rfl
  · rw [hear_start (by simp), hear_within [] (by simpa using fits) (by simp)]
    exact hear_last rfl
  · cases bytes with
    | nil => exact absurd rfl some
    | cons b bytes =>
      have begins : Receiver.between.next (.data b) = (none, .stray) := rfl
      rw [List.map_cons, List.cons_append, hear_step begins (by simp), hear_stray bytes (by simp)]
      exact hear_last rfl
  · rw [parse_frame_iff]
    cases f <;> rfl

end Sys2Proof.Safety
end

section
/-! SUPPORT. What the changes of one link keep: its lists within their sizes, its replay list consecutive, its state UP. -/

namespace Sys2Proof.Safety

open Sys2Proof.Machine

/-! ### Conditions on one link -/

/-- The lists of a link within their sizes (R159, R170, R172). -/
def LinkBounds (l : Link) : Prop :=
  l.inbound.length ≤ 4 ∧ l.outbound.length ≤ 16 ∧ l.replay.length ≤ 12 ∧ l.farRoom ≤ 4

/-- The frames of a replay list have consecutive sequences that end before `s` (R172). -/
def Consecutive (fs : List SentFrame) (s : Byte) : Prop :=
  ∀ older f newer, fs = older ++ f :: newer → f.seq + BitVec.ofNat 8 newer.length + 1 = s

/-- What LinkLaw asks of a link, but for the room timer. -/
def LinkOrder (l : Link) : Prop :=
  Consecutive l.replay l.sendSeq ∧ (l.state ≠ .up → l.replay = [] ∧ l.fullWait = false) ∧
    (l.fullWait = true → l.farRoom = 0)

/-- The room timer runs only with an empty replay list, a message to send and no room (R175). -/
def RoomOrder (l : Link) : Prop := l.roomTimer ≠ none → l.replay = [] ∧ l.outbound ≠ [] ∧ l.farRoom = 0

theorem link_law_iff (h : Hub) : LinkLaw h ↔ ∀ p, LinkOrder (h.link p) ∧ RoomOrder (h.link p) :=
  ⟨fun law p => ⟨⟨(law p).1, (law p).2.1, (law p).2.2.1⟩, (law p).2.2.2⟩,
    fun law p => ⟨(law p).1.1, (law p).1.2.1, (law p).1.2.2, (law p).2⟩⟩

theorem consecutive_nil (s : Byte) : Consecutive [] s := fun _ _ _ no => by simp at no

theorem Consecutive.suffix {fs gs : List SentFrame} {s : Byte} (order : Consecutive fs s) (suffix : gs <:+ fs) :
    Consecutive gs s := by
  obtain ⟨front, rfl⟩ := suffix
  rintro older f newer rfl
  exact order (front ++ older) f newer (List.append_assoc ..).symm

theorem Consecutive.append {fs : List SentFrame} {s : Byte} (order : Consecutive fs s) (m : OutMessage) :
    Consecutive (fs ++ [⟨s, m⟩]) (s + 1) := by
  intro older f newer split
  rcases List.append_eq_append_iff.mp split with ⟨more, rfl, same⟩ | ⟨more, rfl, same⟩
  · rcases List.cons_eq_append_iff.mp same with ⟨rfl, same⟩ | ⟨rest, rfl, same⟩
    · cases same
      simp
    · simp at same
  · cases more with
    | nil =>
      cases same
      simp
    | cons x more =>
      cases same
      have before := order older f more rfl
      rw [← before, show (more.append _).length = more.length + 1 from List.length_append, BitVec.ofNat_add]
      ac_rfl

/-! ### What a change of a link keeps -/

/-- The change of a link keeps it UP, an inbound list empty outside UP, its bounds and its order. -/
structure LinkKeeps (l l' : Link) : Prop where
  up : l.state = .up → l'.state = .up
  empty : (l.state ≠ .up → l.inbound = []) → l'.state ≠ .up → l'.inbound = []
  bounds : LinkBounds l → LinkBounds l'
  order : LinkOrder l → LinkOrder l'

theorem LinkKeeps.refl (l : Link) : LinkKeeps l l := ⟨id, id, id, id⟩

theorem LinkKeeps.trans {k l m : Link} (a : LinkKeeps k l) (b : LinkKeeps l m) : LinkKeeps k m :=
  ⟨fun up => b.up (a.up up), fun empty => b.empty (a.empty empty), fun bounds => b.bounds (a.bounds bounds),
    fun order => b.order (a.order order)⟩

/-- The later change first. -/
theorem LinkKeeps.after {k l m : Link} (b : LinkKeeps l m) (a : LinkKeeps k l) : LinkKeeps k m := a.trans b

/-- The items of a link that the conditions look at. -/
def linkItems (l : Link) : LinkState × List (List Byte) × List OutMessage × List SentFrame × Nat × Byte × Bool :=
  (l.state, l.inbound, l.outbound, l.replay, l.farRoom, l.sendSeq, l.fullWait)

theorem LinkKeeps.items {l l' : Link} (same : linkItems l' = linkItems l) : LinkKeeps l l' := by
  simp only [linkItems, Prod.mk.injEq] at same
  obtain ⟨state, inbound, outbound, replay, room, seq, wait⟩ := same
  refine ⟨fun up => state.trans up, fun empty => ?_, fun bounds => ?_, fun order => ?_⟩
  · rw [state, inbound]
    exact empty
  · unfold LinkBounds
    rw [inbound, outbound, replay, room]
    exact bounds
  · unfold LinkOrder
    rw [replay, seq, state, wait, room]
    exact order

/-- In UP a change may do what keeps the bounds and the order. -/
theorem LinkKeeps.in_up {l l' : Link} (up : l.state = .up) (state : l'.state = l.state)
    (bounds : LinkBounds l → LinkBounds l')
    (order : Consecutive l.replay l.sendSeq → (l.fullWait = true → l.farRoom = 0) →
      Consecutive l'.replay l'.sendSeq ∧ (l'.fullWait = true → l'.farRoom = 0)) : LinkKeeps l l' := by
  have up' := state.trans up
  refine ⟨fun _ => up', fun _ down => absurd up' down, bounds, fun ⟨consecutive, _, wait⟩ => ?_⟩
  obtain ⟨consecutive', wait'⟩ := order consecutive wait
  exact ⟨consecutive', fun down => absurd up' down, wait'⟩

/-- The head of the inbound list leaves it. -/
theorem LinkKeeps.taken {l : Link} {m : List Byte} {rest : List (List Byte)} (head : l.inbound = m :: rest) :
    LinkKeeps l { l with inbound := rest } := by
  refine ⟨id, fun empty down => ?_, fun ⟨inbound, others⟩ => ⟨?_, others⟩, id⟩
  · have none_left := empty down
    rw [head] at none_left
    cases none_left
  · rw [head, List.length_cons] at inbound
    exact Nat.le_of_succ_le inbound

/-- A message joins an outbound list that has a free place. -/
theorem LinkKeeps.placed {l : Link} (m : OutMessage) (room : l.outbound.length < 16) :
    LinkKeeps l { l with outbound := l.outbound ++ [m] } := by
  refine ⟨id, id, fun ⟨inbound, _, others⟩ => ⟨inbound, ?_, others⟩, id⟩
  rw [List.length_append]
  exact room

theorem owe_ack_items (l : Link) (now : Nat) : linkItems (l.oweAck now) = linkItems l := by
  unfold Link.oweAck
  split <;> rfl

/-- The head of the inbound list is taken, and an acknowledgement may be owed (R156, R171). -/
theorem LinkKeeps.taking {l : Link} {m : List Byte} {rest : List (List Byte)} (head : l.inbound = m :: rest) (now : Nat) :
    LinkKeeps l { (if l.inbound.length = 4 then l.oweAck now else l) with inbound := rest } := by
  refine .after (.items ?_) (.taken head)
  split
  · simp [linkItems]
  · rfl

/-! ### Training -/

theorem LinkKeeps.begin_training {l : Link} (training : l.state = .training) (now : Nat) : LinkKeeps l (l.beginTraining now) :=
  .items (by simp [linkItems, Link.beginTraining, training])

/-- In TRAINING the far-end room is taken. -/
theorem LinkKeeps.far_room {l : Link} (training : l.state = .training) {room : Nat} (small : room ≤ 4) :
    LinkKeeps l { l with step := some .ready, farReady := true, farRoom := room } := by
  have down : l.state ≠ .up := by simp [training]
  refine ⟨id, id, fun ⟨inbound, outbound, replay, _⟩ => ⟨inbound, outbound, replay, small⟩, fun order => ?_⟩
  refine ⟨order.1, order.2.1, fun waits => ?_⟩
  cases (order.2.1 down).2.symm.trans waits

/-- The link comes UP. -/
theorem LinkKeeps.comes_up {l : Link} (training : l.state = .training) :
    LinkKeeps l { l with
      state := .up
      step := none
      farReady := false
      readySent := false
      trainingTimer := none
      expected := 0
      sendSeq := 0
      corrupt := 0
      replays := 0
      nakMark := false
      ackOwed := none
      resend := none
      fullWait := false
      replayTimer := none
      roomTimer := none } := by
  have down : l.state ≠ .up := by simp [training]
  refine ⟨fun _ => rfl, fun _ no => absurd rfl no, id, fun order => ⟨?_, fun no => absurd rfl no, fun no => by cases no⟩⟩
  show Consecutive l.replay 0
  rw [(order.2.1 down).1]
  exact consecutive_nil 0

/-! ### Frames received in UP -/

theorem LinkKeeps.nak (l : Link) (reason : NakReason) : LinkKeeps l (l.nak reason) := .items rfl

theorem LinkKeeps.receive_message {l : Link} (up : l.state = .up) (now : Nat) (seq : Byte) (payload : List Byte) :
    LinkKeeps l (l.receiveMessage now seq payload) := by
  unfold Link.receiveMessage
  dsimp only
  split
  · split
    · next room =>
      refine .after (.items (owe_ack_items _ now)) (.in_up up rfl (fun ⟨_, others⟩ => ⟨?_, others⟩) fun order wait => ⟨order, wait⟩)
      rw [List.length_append]
      exact room
    · exact .items rfl
  split
  · split
    · exact .items rfl
    · exact .items rfl
  · exact .after (.items (owe_ack_items _ now)) (.items rfl)

theorem mend_items (l : Link) : linkItems l.mendResend = linkItems l := by
  unfold Link.mendResend
  split
  · split <;> rfl
  · rfl

theorem frames_after_suffix (seq : Byte) (fs : List SentFrame) : framesAfter seq fs <:+ fs := by
  rw [frames_after_eq]
  exact (List.drop_suffix 1 _).trans (List.dropWhile_suffix _)

theorem frames_from_suffix (seq : Byte) (fs : List SentFrame) : framesFrom seq fs <:+ fs := by
  rw [frames_from_eq]
  exact List.dropWhile_suffix _

/-- Frames ahead leave the replay list. -/
theorem LinkKeeps.cut {l : Link} (up : l.state = .up) {fs : List SentFrame} (suffix : fs <:+ l.replay) :
    LinkKeeps l { l with replay := fs } :=
  .in_up up rfl (fun ⟨inbound, outbound, replay, room⟩ => ⟨inbound, outbound, suffix.length_le.trans replay, room⟩)
    fun order wait => ⟨order.suffix suffix, wait⟩

theorem LinkKeeps.receive_ack {l : Link} (up : l.state = .up) (now : Nat) (n : Byte) {room : Nat} (small : room ≤ 4) :
    LinkKeeps l (l.receiveAck now n room) := by
  unfold Link.receiveAck
  dsimp only
  have first : LinkKeeps l (if l.heard.holds n = true then
      ({ l.heard with replay := framesAfter n l.heard.replay } : Link).progress now else l.heard) := by
    split
    · exact .after (l := { l.heard with replay := framesAfter n l.heard.replay }) (.items rfl)
        (.after (.cut (l := l.heard) up (frames_after_suffix n l.replay)) (.items rfl))
    · exact .items rfl
  generalize (if l.heard.holds n = true then
      ({ l.heard with replay := framesAfter n l.heard.replay } : Link).progress now else l.heard) = m at first
  have up' := first.up up
  refine .after (.items (mend_items _)) (first.trans ?_)
  split
  · exact .in_up up' rfl (fun ⟨inbound, outbound, replay, _⟩ => ⟨inbound, outbound, replay, small⟩)
      fun order _ => ⟨order, fun no => by cases no⟩
  · next still =>
    refine .in_up up' rfl (fun ⟨inbound, outbound, replay, _⟩ => ⟨inbound, outbound, replay, small⟩)
      fun order _ => ⟨order, fun waits => ?_⟩
    rw [not_and] at still
    exact Nat.eq_zero_of_not_pos (still waits)

theorem LinkKeeps.cut_ahead {l : Link} (up : l.state = .up) (now : Nat) (e : Byte) : LinkKeeps l (l.cutAhead now e) := by
  have suffix : (if l.holds e = true then framesFrom e l.replay else []) <:+ l.replay := by
    split
    · exact frames_from_suffix e l.replay
    · exact List.nil_suffix
  unfold Link.cutAhead
  dsimp only
  generalize (if l.holds e = true then framesFrom e l.replay else []) = fs at suffix ⊢
  split
  · exact .after (.items (mend_items _)) (.after (l := { l with replay := fs }) (.items rfl) (.cut up suffix))
  · exact .refl l

theorem LinkKeeps.receive_nak {l : Link} (up : l.state = .up) (now : Nat) (e : Byte) (reason : NakReason) :
    LinkKeeps l (l.receiveNak now e reason) := by
  unfold Link.receiveNak
  dsimp only
  split
  · have cut : LinkKeeps l (l.heard.cutAhead now e) := .after (.cut_ahead (l := l.heard) up now e) (.items rfl)
    refine cut.trans ?_
    have up' := cut.up up
    generalize l.heard.cutAhead now e = m at up'
    have resent : LinkKeeps m (if m.holds e = true then { m with resend := some e, replayTimer := some (now + replayTime) } else m) := by
      split <;> exact .items rfl
    cases reason with
    | corrupt => exact resent
    | order => exact resent
    | full =>
      exact .in_up up' rfl (fun ⟨inbound, outbound, replay, _⟩ => ⟨inbound, outbound, replay, Nat.zero_le 4⟩)
        fun order _ => ⟨order, fun _ => rfl⟩
  · exact .items rfl

/-! ### Frames sent -/

/-- The head of the outbound list goes out in a new frame, with a place on the replay list (R172). -/
theorem LinkKeeps.frame_new {l : Link} (up : l.state = .up) {m : OutMessage} {rest : List OutMessage}
    (head : l.outbound = m :: rest) (place : l.replay.length < 12) (now : Nat) : LinkKeeps l (l.frameNew now m rest) := by
  refine .in_up up rfl (fun ⟨inbound, outbound, _, room⟩ => ⟨inbound, ?_, ?_, (Nat.sub_le _ 1).trans room⟩)
    fun order wait => ⟨order.append m, fun waits => ?_⟩
  · rw [head, List.length_cons] at outbound
    exact Nat.le_of_succ_le outbound
  · show (l.replay ++ [_]).length ≤ 12
    rw [List.length_append]
    exact place
  · show l.farRoom - 1 = 0
    rw [wait waits]

/-! ### The end of an event, and a link torn down -/

theorem room_timed_items (l : Link) (now : Nat) : linkItems (l.roomTimed now) = linkItems l := by
  unfold Link.roomTimed
  split <;> rfl

/-- At the end of an event the room timer stands in order. -/
theorem room_timed_order {l : Link} (order : LinkOrder l) (now : Nat) : RoomOrder (l.roomTimed now) := by
  intro runs
  unfold Link.roomTimed at runs ⊢
  split
  · next starts =>
    simp only [Bool.and_eq_true, List.isEmpty_iff, Bool.not_eq_true', List.isEmpty_eq_false_iff, Bool.or_eq_true,
      beq_iff_eq] at starts
    obtain ⟨⟨replay, outbound⟩, room | waits⟩ := starts
    · exact ⟨replay, outbound, room⟩
    · exact ⟨replay, outbound, order.2.2 waits⟩
  · next stops =>
    rw [if_neg stops] at runs
    exact absurd rfl runs

end Sys2Proof.Safety
end

section
/-! SUPPORT. All that a command can do to the hub, as one move of a short list, with what no law looks at apart. The proofs of
the laws cite this list and go through its moves. -/

namespace Sys2Proof.Safety

open Sys2Proof.Machine

/-! ### What no law of the units looks at -/

/-- The items of the hub that the laws of the table, the leases, the channel and the tags do not look at. -/
structure Unseen where
  now : Nat
  links : Quad Link
  messages : Quad MessageLayer
  votes : Quad Bool
  grants : Nat
  lapses : Nat
  lastServed : Nat
  laneFreeAt : Nat
  hits : Nat
  misses : Nat
  overruns : Nat
  completed : Nat
  check : CheckUnit
  issued : List DramCommand

/-- The hub with other values of these items. -/
def withUnseen (h : Hub) (u : Unseen) : Hub :=
  { h with
    now := u.now
    links := u.links
    messages := u.messages
    rest := { h.rest with votes := u.votes }
    leases := { h.leases with grants := u.grants, lapses := u.lapses }
    scheduler := { h.scheduler with
      lastServed := u.lastServed, laneFreeAt := u.laneFreeAt, hits := u.hits, misses := u.misses }
    upkeep := { h.upkeep with overruns := u.overruns, completed := u.completed }
    check := u.check
    dram := { h.dram with issued := u.issued } }

/-- The values of these items in a hub. -/
def unseenOf (h : Hub) : Unseen where
  now := h.now
  links := h.links
  messages := h.messages
  votes := h.rest.votes
  grants := h.leases.grants
  lapses := h.leases.lapses
  lastServed := h.scheduler.lastServed
  laneFreeAt := h.scheduler.laneFreeAt
  hits := h.scheduler.hits
  misses := h.scheduler.misses
  overruns := h.upkeep.overruns
  completed := h.upkeep.completed
  check := h.check
  issued := h.dram.issued

/-- Two message layers with the same tags, pending replies and fences. -/
def SameWork (m n : MessageLayer) : Prop := n.tags = m.tags ∧ n.replies = m.replies ∧ n.fences = m.fences

/-- The hub changes at most in what the laws do not look at. -/
structure Quiet (h g : Hub) : Prop where
  frame : g = withUnseen h (unseenOf g)
  layers : ∀ p, SameWork (h.layer p) (g.layer p)

theorem SameWork.refl (m : MessageLayer) : SameWork m m := ⟨rfl, rfl, rfl⟩

theorem SameWork.trans {k m n : MessageLayer} (a : SameWork k m) (b : SameWork m n) : SameWork k n :=
  ⟨b.1.trans a.1, b.2.1.trans a.2.1, b.2.2.trans a.2.2⟩

theorem Quiet.refl (h : Hub) : Quiet h h := ⟨rfl, fun _ => .refl _⟩

theorem Quiet.trans {h k g : Hub} (a : Quiet h k) (b : Quiet k g) : Quiet h g := by
  refine ⟨b.frame.trans ?_, fun p => (a.layers p).trans (b.layers p)⟩
  rw [a.frame]
  rfl

/-- A change that leaves the message layers. -/
theorem quiet_of_messages {h g : Hub} (messages : g.messages = h.messages) (frame : g = withUnseen h (unseenOf g)) :
    Quiet h g :=
  ⟨frame, fun p => by rw [Hub.layer, Hub.layer, messages]; exact .refl _⟩

theorem quiet_on_messages (h : Hub) (p : Port) {f : MessageLayer → MessageLayer} (same : ∀ m, SameWork m (f m)) :
    Quiet h (h.onMessages p f) := by
  refine ⟨rfl, fun q => ?_⟩
  rw [Hub.onMessages_layer]
  split
  · next own =>
    rw [own]
    exact same _
  · exact .refl _

theorem quiet_on_link (h : Hub) (p : Port) (f : Link → Link) : Quiet h (h.onLink p f) := quiet_of_messages rfl rfl

theorem quiet_reach (h : Hub) (t : Nat) : Quiet h (h.reach t) := quiet_of_messages rfl rfl

theorem quiet_place (h : Hub) (p : Port) (m : OutMessage) : Quiet h (h.place p m) := quiet_on_link h p _

theorem quiet_answer (h : Hub) (p : Port) (r : Reply) : Quiet h (h.answer p r) := by
  rw [answer_eq]
  split
  · exact (quiet_place h p _).trans (quiet_on_messages _ p fun _ => ⟨rfl, rfl, rfl⟩)
  · exact quiet_place h p _

theorem quiet_notify (h : Hub) (p : Port) (k : NoticeKind) (detail : Nat) (handle : Option Handle) :
    Quiet h (h.notify p k detail handle) := quiet_on_messages h p fun _ => ⟨rfl, rfl, rfl⟩

theorem quiet_notify_up (h : Hub) (k : NoticeKind) (detail : Nat) : Quiet h (h.notifyUp k detail) := by
  refine ⟨rfl, fun p => ?_⟩
  rw [Hub.notifyUp_layer]
  split
  · exact ⟨rfl, rfl, rfl⟩
  · exact .refl _

theorem quiet_link_up (h : Hub) (p : Port) : Quiet h (h.linkUp p) := quiet_of_messages rfl rfl

theorem quiet_lapse (h : Hub) (x : LeaseSlot) : Quiet h (h.lapse x) := by
  cases held : x.lease with
  | none =>
    unfold Hub.lapse
    rw [held]
    exact .refl h
  | some l =>
    rw [lapse_eq h held]
    exact (quiet_notify h l.owner .leaseLapsed 0 _).trans (quiet_of_messages rfl rfl)

/-! ### Quiet changes of the links -/

/-- A quiet change that keeps of every link what the laws of links ask for. -/
structure Still (h g : Hub) : Prop extends Quiet h g where
  links : ∀ p, LinkKeeps (h.link p) (g.link p)

theorem Still.refl (h : Hub) : Still h h := ⟨.refl h, fun _ => .refl _⟩

theorem Still.trans {h k g : Hub} (a : Still h k) (b : Still k g) : Still h g :=
  ⟨a.toQuiet.trans b.toQuiet, fun p => (a.links p).trans (b.links p)⟩

theorem links_keep {h g : Hub} (same : g.links = h.links) (p : Port) : LinkKeeps (h.link p) (g.link p) := by
  rw [Hub.link, Hub.link, same]
  exact .refl _

theorem still_of_links {h g : Hub} (quiet : Quiet h g) (links : g.links = h.links) : Still h g := ⟨quiet, links_keep links⟩

/-- A change that leaves the message layers and the links. -/
theorem still_of_messages {h g : Hub} (messages : g.messages = h.messages) (frame : g = withUnseen h (unseenOf g))
    (links : g.links = h.links) : Still h g := still_of_links (quiet_of_messages messages frame) links

theorem still_on_messages (h : Hub) (p : Port) {f : MessageLayer → MessageLayer} (same : ∀ m, SameWork m (f m)) :
    Still h (h.onMessages p f) := still_of_links (quiet_on_messages h p same) rfl

theorem still_on_link (h : Hub) (p : Port) {f : Link → Link} (keeps : LinkKeeps (h.link p) (f (h.link p))) :
    Still h (h.onLink p f) := by
  refine ⟨quiet_on_link h p f, fun q => ?_⟩
  rw [Hub.onLink_link]
  split
  · next own =>
    rw [own]
    exact keeps
  · exact .refl _

theorem still_reach (h : Hub) (t : Nat) : Still h (h.reach t) := still_of_links (quiet_reach h t) rfl

theorem still_place (h : Hub) (p : Port) (m : OutMessage) (room : (h.link p).outbound.length < 16) : Still h (h.place p m) :=
  still_on_link h p (.placed m room)

theorem still_answer (h : Hub) (p : Port) (r : Reply) (room : (h.link p).outbound.length < 16) : Still h (h.answer p r) := by
  rw [answer_eq]
  split
  · exact (still_place h p _ room).trans (still_on_messages _ p fun _ => ⟨rfl, rfl, rfl⟩)
  · exact still_place h p _ room

theorem still_after_taking (h : Hub) (p : Port) {m : List Byte} {rest : List (List Byte)}
    (head : (h.link p).inbound = m :: rest) : Still h (h.afterTaking p rest) :=
  (still_on_link h p (.taking head h.now)).trans (still_on_messages _ p fun _ => ⟨rfl, rfl, rfl⟩)

theorem still_notify_up (h : Hub) (k : NoticeKind) (detail : Nat) : Still h (h.notifyUp k detail) :=
  still_of_links (quiet_notify_up h k detail) rfl

theorem still_link_up (h : Hub) (p : Port) (training : (h.link p).state = .training) : Still h (h.linkUp p) := by
  refine ⟨quiet_link_up h p, fun q => ?_⟩
  rw [show (h.linkUp p).link q = (h.onLink p _).link q from rfl, Hub.onLink_link]
  split
  · next own =>
    rw [own]
    exact .comes_up training
  · exact .refl _

theorem still_lapse (h : Hub) (x : LeaseSlot) : Still h (h.lapse x) := by
  refine still_of_links (quiet_lapse h x) ?_
  cases held : x.lease with
  | none =>
    unfold Hub.lapse
    rw [held]
  | some l =>
    rw [lapse_eq h held]
    rfl

/-! ### The moves -/

/-- The entry of an admitted request (R7, R9 to R12). -/
def admitted (h : Hub) (p : Port) (kind : Access) (tag : Byte) (words a : Nat) (i : Index) (data : List Word) : Entry :=
  let e := h.newEntry p kind tag words a i data
  { e with holds := h.newHolds e }.promote

/-- A channel-wide command is ready, by command. -/
def commandReady (h : Hub) : ChannelCommand → Bool
  | .allClose => h.allCloseReady
  | .modeLoad => h.modeLoadReady
  | .upkeep => h.upkeepReady
  | .retainExit => h.retainExitReady

/-- The progress of the read burst in flight. -/
def readDone (h : Hub) (x : Burst) (e : Entry) (flips : List (BitVec 72)) : ReadProgress :=
  ReadProgress.words ⟨h.dram, h.check, e⟩ x.addr flips x.words

/-- The hub with the words of the write burst in flight in memory, and its bank's write-recovery mark set. -/
def writeDone (h : Hub) (x : Burst) : Hub :=
  { h with dram := h.dram.storeWords x.addr x.data }.onBank x.bank
    (fun k => { k with writeMark := some (h.now + h.config.committed.tWriteRecover) })

/-- A pending change is taken. -/
def changeTaken (h : Hub) (kind : ChangeKind) (p : Port) (tag : Byte) : Hub :=
  { h with config := { h.config with change := some ⟨kind, p, tag, false⟩ } }.addTag p tag

/-- The window `k` of port `n` with another record. -/
def windowPut (h : Hub) (n k : Port) (w : Option Window) : Hub :=
  { h with windows := h.windows.upd n (fun ws => ws.set k w) }

/-- What the command `c` can do to the hub, one constructor for each thing. The hypotheses are what the laws need of the
conditions under which it does so. -/
inductive Act (c : Instr) (h : Hub) : Hub → Prop
  | none : Act c h h
  | admits {p kind tag words reserved addr a i} (data : List Word)
      (passes : h.admission p kind tag words reserved addr = .ok (a, i)) :
      Act c h (({ h with table := h.table ++ [admitted h p kind tag words a i data] }.addTag p tag).wantMemory p)
  | fence {p tag} (fresh : h.tagInUse p tag = false) (room : (h.layer p).fences.length < 4)
      (some : (h.table.filter (fun e => e.port == p && e.unfinished)).map Entry.index ≠ []) :
      Act c h ((h.onMessages p (fun m => { m with fences := m.fences ++
        [⟨tag, (h.table.filter (fun e => e.port == p && e.unfinished)).map Entry.index⟩] })).addTag p tag)
  | wait {w : Waiting} (fresh : h.tagInUse w.port w.tag = false) (room : h.leases.waits.length < 8)
      (blocked : h.blocked w = true) :
      Act c h ({ h with leases := { h.leases with waits := h.leases.waits ++ [w] } }.addTag w.port w.tag)
  | take {w : Waiting} {id : LeaseId} (fresh : h.tagInUse w.port w.tag = false) (free : h.freeSlot = some id)
      (unblocked : h.blocked w = false) (place : (h.link w.port).outbound.length < 16) : Act c h (h.placeTake id w)
  | leave {x : LeaseSlot} {l : Lease} {expiry : Nat} (slot : x ∈ h.leases.slots) (held : x.lease = some l)
      (granted : l.phase = .granted expiry) : Act c h (h.leaseLeaves x.id)
  | renew {x : LeaseSlot} {l : Lease} {expiry : Nat} (later : Nat) (slot : x ∈ h.leases.slots) (held : x.lease = some l)
      (granted : l.phase = .granted expiry) :
      Act c h { h with leases := h.leases.onSlot x.id (fun s =>
        { s with lease := s.lease.map (fun l => { l with phase := .granted later }) }) }
  | want {p} : Act c h (h.wantMemory p)
  | wake {p tag} (fresh : h.tagInUse p tag = false) :
      Act c h { (h.wantMemory p).addTag p tag with
        rest := { (h.wantMemory p).rest with wakes := h.rest.wakes ++ [(p, tag)] } }
  | stage {p} {staged : Params} (command : c = .configSet p) (unchanged : h.config.change = Option.none) :
      Act c h { h with config := { h.config with staged := staged } }
  | commit {p tag} {force : Bool} (fresh : h.tagInUse p tag = false) (outside : h.channel ≠ .bringup)
      (unchanged : h.config.change = Option.none) (passes : h.crossCheck force = Option.none) :
      Act c h (changeTaken (h.commitAborts force (geometryDiffers h.config.staged h.config.committed))
        (.commit force (geometryDiffers h.config.staged h.config.committed)) p tag)
  | disable {p n k} (command : c = .windowSet p) (unchanged : h.config.change = Option.none) :
      Act c h (windowPut h n k Option.none)
  | enable {p n k} {w : Window} (command : c = .windowSet p) (unchanged : h.config.change = Option.none)
      (inside : w.target + w.size ≤ h.config.committed.memorySize)
      (apart : (((h.windows.get n).set k Option.none).toList).findIdx? (overlapsWindow w.base w.size) = Option.none) :
      Act c h (windowPut h n k (some w))
  | role {p q} (command : c = .claim p ∨ c = .handover p) (heard : c = .claim q ∨ (h.link q).state = .up) :
      Act c h { h with config := { h.config with holder := some q } }
  | hubReset {p tag} (fresh : h.tagInUse p tag = false) (outside : h.channel ≠ .bringup)
      (unchanged : h.config.change = Option.none) : Act c h (changeTaken h.discardWork .hubReset p tag)
  | placeReply {p r rest reply} (head : (h.layer p).replies = r :: rest) (owner : h.replyOf r = some reply) :
      Act c h ((h.onMessages p (fun m => { m.dropTags [r.tag] with replies := rest })).placed p r)
  | teardown {p} (command : c = .replayTimerExpiry p ∨ (∃ f, c = .alignReceived p f) ∨ ∃ f, c = .corruptFrame p f) :
      Act c h (h.teardown p)
  | rowOpen {b e} (open_ done : Nat) (serves : h.laneServes = some (b, .openFor e)) :
      Act c h (h.onBank b (fun k => { k with
        state := .opening, row := some e.row, openedFor := some e.index, openMark := some open_, doneAt := some done }))
  | rowClose {b} (done : Nat) (serves : h.laneServes = some (b, .close)) :
      Act c h (h.onBank b (fun k => { k with
        state := .closing, row := Option.none, openedFor := Option.none, openMark := Option.none
        closeRequested := false, doneAt := some done }))
  | bankOpens {b k} (flagged : Bool) (known : h.scheduler.banks[b]? = some k) (opening : k.state = .opening) :
      Act c h (h.onBank b (fun k => { k with
        state := .opened, doneAt := Option.none, closeRequested := k.closeRequested || flagged }))
  | bankCloses {b k} (known : h.scheduler.banks[b]? = some k) (closing : k.state = .closing) :
      Act c h (h.onBank b (fun k => { k with state := .closed, doneAt := Option.none }))
  | writeMark {b} : Act c h (h.onBank b (fun k => { k with writeMark := Option.none }))
  | startBurst {e} (granted : h.grant = some e) : Act c h (h.startBurst e)
  | completeRead {flips x e} (command : c = .colReadComplete flips) (flying : h.scheduler.burst = some x)
      (kind : x.kind = .read) (served : h.entry x.entry = some e) :
      Act c h ({ h with dram := (readDone h x e flips).dram, check := (readDone h x e flips).check }.completeBurst
        (readDone h x e flips).entry x.words)
  | completeWrite {x e} (command : c = .colWriteComplete) (flying : h.scheduler.burst = some x) (kind : x.kind = .write)
      (served : h.entry x.entry = some e) : Act c h ((writeDone h x).completeBurst e x.words)
  | launch {d : ChannelCommand} (done : Nat) (ready : commandReady h d = true) :
      Act c h { h with scheduler := { h.scheduler with flight := some ⟨d, done⟩ } }
  | allClosed {t} (flying : h.scheduler.flight = some ⟨.allClose, t⟩) :
      Act c h { h with
        scheduler := { h.scheduler with
          flight := Option.none
          banks := List.replicate h.config.committed.banks Bank.closedRecord }
        config := { h.config with bringup := h.config.bringup.map (fun r => { r with phase := .mode }) } }
  | modeLoaded {t} (flying : h.scheduler.flight = some ⟨.modeLoad, t⟩) :
      Act c h { h with
        scheduler := { h.scheduler with flight := Option.none }
        dram := { h.dram with readLatency := h.config.committed.readLatency }
        config := { h.config with bringup := h.config.bringup.map (fun r =>
          { r with phase := .burst, upkeepsLeft := h.config.committed.bringupUpkeeps }) } }
  | paid {t} (flying : h.scheduler.flight = some ⟨.upkeep, t⟩) (outside : h.config.bringup = Option.none) :
      Act c h (upkeepPaid h t)
  | leavingEnds {t} (flying : h.scheduler.flight = some ⟨.upkeep, t⟩) (outside : h.config.bringup = Option.none)
      (leaving : h.channel = .leaving) (unchanged : h.config.change = Option.none) :
      Act c h (upkeepPaid h t).becomeServing
  | bringupUpkeep {t r} (flying : h.scheduler.flight = some ⟨.upkeep, t⟩) (inside : h.config.bringup = some r) :
      Act c h { upkeepPaid h t with config := { h.config with bringup := some { r with upkeepsLeft := r.upkeepsLeft - 1 } } }
  | bringupEnds {t r} (flying : h.scheduler.flight = some ⟨.upkeep, t⟩) (inside : h.config.bringup = some r) :
      Act c h ((upkeepPaid h t).endBringup r)
  | retainEnter (ready : h.retainEnterReady = true) :
      Act c h { h with
        channel := .resting
        dram := { h.dram with retention := true }
        upkeep := h.upkeep.stopTimer }
  | retained {t} (flying : h.scheduler.flight = some ⟨.retainExit, t⟩) :
      Act c h { h with
        scheduler := { h.scheduler with flight := Option.none }
        dram := { h.dram with retention := false }
        rest := { h.rest with leaving := h.rest.leaving.map (fun _ => LeavingStep.exitUpkeep) } }
  | interval {t} (later debt : Nat) (level : Urgency) (loaded : h.upkeep.timer = some t) :
      Act c h { h with upkeep := { h.upkeep with timer := some later, debt := debt, level := level } }
  | waitEnds {p tag w} (found : h.leases.waits.find? (fun w => w.port == p && w.tag == tag) = some w) :
      Act c h (({ h with leases := { h.leases with
        waits := h.leases.waits.filter (fun x => !(x.port == p && x.tag == tag)) } }.defer p
          (.leaseEnd tag .timeout 0)).scanWaits)
  | grantingEnds {p tag id deadline left} (found : h.grantingSlot p tag = some (id, deadline, left)) :
      Act c h ((h.leaseLeaves id).defer p (.leaseEnd tag .timeout left))
  | settleEnds {r} (record : h.config.bringup = some r) (phase : r.phase = .settle) :
      Act c h { h with config := { h.config with bringup := some { r with phase := .close } } }
  | copy {force geometry p tag torn} (command : c = .commitCopy)
      (pending : h.config.change = some ⟨.commit force geometry, p, tag, torn⟩) (idle : h.scheduler.idle = true)
      (out : h.dram.retention = false) : Act c h (copied (h.commitAborts true geometry) geometry p tag torn)
  | reset {p tag torn ms} (command : c = .resetEvent) (pending : h.config.change = some ⟨.hubReset, p, tag, torn⟩)
      (idle : h.scheduler.idle = true) (out : h.dram.retention = false)
      (layers : ∀ q, ms.get q = resetLayer h p tag torn q) : Act c h (resetHub h ms)

/-- All that a command does to the hub before the end of its event: one move between quiet changes. -/
def Effect (c : Instr) (h g : Hub) : Prop := ∃ k k', Still h k ∧ Act c k k' ∧ Still k' g

theorem Effect.of_act {c : Instr} {h g : Hub} (act : Act c h g) : Effect c h g := ⟨h, g, .refl h, act, .refl g⟩

theorem Effect.of_still {c : Instr} {h g : Hub} (still : Still h g) : Effect c h g := ⟨h, h, .refl h, .none, still⟩

theorem Effect.after {c : Instr} {h k g : Hub} (still : Still h k) (effect : Effect c k g) : Effect c h g := by
  obtain ⟨a, b, before, act, behind⟩ := effect
  exact ⟨a, b, still.trans before, act, behind⟩

theorem Effect.before {c : Instr} {h k g : Hub} (effect : Effect c h k) (still : Still k g) : Effect c h g := by
  obtain ⟨a, b, before, act, behind⟩ := effect
  exact ⟨a, b, before, act, behind.trans still⟩

end Sys2Proof.Safety
end

section
/-! SUPPORT. Every command's effect on the hub is one of the moves. -/

namespace Sys2Proof.Safety

open Sys2Proof.Machine

/-! ### Requests -/

/-- The port has a free place on its outbound list. -/
def Place (h : Hub) (p : Port) : Prop := (h.link p).outbound.length < 16

theorem taken_place {h : Hub} {p : Port} (may : h.mayTake p = true) (rest : List (List Byte)) : Place (h.afterTaking p rest) p := by
  have room : (h.link p).outbound.length < 16 := by
    simp only [Hub.mayTake, Bool.and_eq_true, decide_eq_true_eq] at may
    exact may.1.1
  have same : ((h.afterTaking p rest).link p).outbound = (h.link p).outbound := by
    rw [show (h.afterTaking p rest).link p = (h.onLink p _).link p from rfl, Hub.onLink_link, if_pos rfl]
    dsimp only
    split
    · exact congrArg (fun i => i.2.2.1) (owe_ack_items (h.link p) h.now)
    · rfl
  rw [Place, same]
  exact room

/-- A request is taken, and then something is done. -/
theorem taken_effect {c : Instr} {h k g : Hub} {p : Port} {r : Request} (taken : h.takeRequest p = some (r, k))
    (effect : Place k p → Effect c k g) : Effect c h g := by
  obtain ⟨m, rest, may, head, _, rfl⟩ := take_request_cases taken
  exact .after (still_after_taking h p head) (effect (taken_place may rest))

theorem refuse_effect {c : Instr} (h : Hub) (p : Port) (tag : Byte) (status : Status) (detail : Nat) (place : Place h p) :
    Effect c h (h.refuse p tag status detail) := .of_still (still_answer h p _ place)

/-- A request whose effect leaves the links is replied at once. -/
theorem accept_effect {c : Instr} {h g : Hub} (p : Port) (tag : Byte) (place : Place h p) (links : g.links = h.links)
    (effect : Effect c h g) : Effect c h (g.accept p tag) :=
  effect.before (still_answer g p _ (by rw [Hub.link, links]; exact place))

theorem admit_effect {c : Instr} (h : Hub) (p : Port) (kind : Access) (tag : Byte) (words reserved addr : Nat)
    (data : List Word) (place : Place h p) : Effect c h (h.admitOrRefuse p kind tag words reserved addr data) := by
  unfold Hub.admitOrRefuse
  split
  · exact refuse_effect h p tag _ _ place
  · next a i passes => exact .of_act (.admits data passes)

theorem take_read_effect {h g : Hub} {p : Port} (e : h.takeRead p = some g) : Effect (.read p) h g := by
  unfold Hub.takeRead at e
  split at e
  · next taken =>
    cases e
    exact taken_effect taken (admit_effect _ p _ _ _ _ _ _)
  · cases e

theorem take_write_effect {h g : Hub} {p : Port} (e : h.takeWrite p = some g) : Effect (.write p) h g := by
  unfold Hub.takeWrite at e
  split at e
  · next taken =>
    cases e
    exact taken_effect taken (admit_effect _ p _ _ _ _ _ _)
  · cases e

theorem take_fence_effect {h g : Hub} {p : Port} (e : h.takeFence p = some g) : Effect (.fence p) h g := by
  unfold Hub.takeFence at e
  split at e
  · next tag reserved k taken =>
    cases e
    refine taken_effect taken fun place => ?_
    unfold Hub.addFence
    split
    · exact refuse_effect k p tag _ _ place
    split
    · exact refuse_effect k p tag _ _ place
    next fresh =>
    split
    · exact refuse_effect k p tag _ _ place
    next room =>
    dsimp only
    split
    · exact accept_effect p tag place rfl (.of_still (.refl k))
    · next some => exact .of_act (.fence (Bool.eq_false_iff.mpr fresh) (Nat.not_le.mp room) some)
  · cases e

theorem take_lease_take_effect {h g : Hub} {p : Port} (e : h.takeLeaseTake p = some g) : Effect (.leaseTake p) h g := by
  unfold Hub.takeLeaseTake at e
  split at e
  · next tag mode flags addr length duration limit k taken =>
    cases e
    refine taken_effect taken fun place => ?_
    rw [request_lease_eq]
    split
    · exact refuse_effect k p tag _ _ place
    split
    · exact refuse_effect k p tag _ _ place
    next fresh =>
    split
    · exact refuse_effect k p tag _ _ place
    next base _ =>
    have fresh' : k.tagInUse p tag = false := Bool.eq_false_iff.mpr fresh
    unfold leaseOutcome
    split
    · exact refuse_effect k p tag _ _ place
    split
    · next id free unblocked => exact .of_act (.take fresh' free unblocked place)
    · next full =>
      split
      · exact refuse_effect k p tag _ _ place
      split
      · exact refuse_effect k p tag _ _ place
      next room =>
      refine .of_act (.wait fresh' (Nat.not_le.mp room) ?_)
      rw [Hub.blocked, full, Option.isNone_none, Bool.or_true, Bool.true_or]
    · next blocked =>
      split
      · exact refuse_effect k p tag _ _ place
      split
      · exact refuse_effect k p tag _ _ place
      next room => exact .of_act (.wait fresh' (Nat.not_le.mp room) blocked)
  · cases e

theorem scan_links (h : Hub) : h.scanWaits.links = h.links := by
  obtain ⟨u, ms, same⟩ := scan_waits_frame h
  rw [same]

theorem leave_links (h : Hub) (id : LeaseId) : (h.leaseLeaves id).links = h.links := scan_links _

theorem want_links (h : Hub) (p : Port) : (h.wantMemory p).links = h.links := by
  obtain ⟨c, r, u, same, _⟩ := want_memory_frame h p
  rw [same]

/-- A slot that a handle names holds a GRANTED lease. -/
theorem named_slot_granted {h : Hub} {p : Port} {id : Nat} {generation : Byte} {x : LeaseSlot}
    (named : h.namedSlot p id generation = some x) :
    x ∈ h.leases.slots ∧ ∃ l expiry, x.lease = some l ∧ l.phase = .granted expiry := by
  refine ⟨List.mem_of_find?_eq_some named, ?_⟩
  have found := List.find?_some named
  rw [Bool.and_eq_true] at found
  have granted := found.2
  split at granted
  · next held => exact ⟨_, _, held, rfl⟩
  · cases granted

theorem take_lease_drop_effect {h g : Hub} {p : Port} (e : h.takeLeaseDrop p = some g) : Effect (.leaseDrop p) h g := by
  unfold Hub.takeLeaseDrop at e
  split at e
  · next tag id generation reserved k taken =>
    cases e
    refine taken_effect taken fun place => ?_
    unfold Hub.dropLease
    split
    · exact refuse_effect k p tag _ _ place
    split
    · exact refuse_effect k p tag _ _ place
    split
    · exact refuse_effect k p tag _ _ place
    · next x named =>
      obtain ⟨slot, l, expiry, held, granted⟩ := named_slot_granted named
      exact accept_effect p tag place (leave_links _ _) (.of_act (.leave slot held granted))
  · cases e

theorem take_lease_renew_effect {h g : Hub} {p : Port} (e : h.takeLeaseRenew p = some g) : Effect (.leaseRenew p) h g := by
  unfold Hub.takeLeaseRenew at e
  split at e
  · next tag id generation duration reserved k taken =>
    cases e
    refine taken_effect taken fun place => ?_
    unfold Hub.renewLease
    split
    · exact refuse_effect k p tag _ _ place
    split
    · exact refuse_effect k p tag _ _ place
    split
    · exact refuse_effect k p tag _ _ place
    · next x named =>
      obtain ⟨slot, l, expiry, held, granted⟩ := named_slot_granted named
      exact accept_effect p tag place rfl (.of_act (.renew _ slot held granted))
  · cases e

theorem take_rest_effect {h g : Hub} {p : Port} (e : h.takeRest p = some g) : Effect (.rest p) h g := by
  unfold Hub.takeRest at e
  split at e
  · next tag reserved k taken =>
    cases e
    refine taken_effect taken fun place => ?_
    unfold Hub.voteRest
    split
    · exact refuse_effect k p tag _ _ place
    split
    · exact refuse_effect k p tag _ _ place
    · exact accept_effect p tag place rfl (.of_still (still_of_messages rfl rfl rfl))
  · cases e

theorem take_wake_effect {h g : Hub} {p : Port} (e : h.takeWake p = some g) : Effect (.wake p) h g := by
  unfold Hub.takeWake at e
  split at e
  · next tag reserved k taken =>
    cases e
    refine taken_effect taken fun place => ?_
    unfold Hub.voteWake
    split
    · exact refuse_effect k p tag _ _ place
    split
    · exact refuse_effect k p tag _ _ place
    next fresh =>
    split
    · exact accept_effect p tag place (want_links _ _) (.of_act .want)
    · obtain ⟨c, r, u, same, _, wakes, _⟩ := want_memory_frame k p
      have act : Act (.wake p) k { (k.wantMemory p).addTag p tag with
        rest := { (k.wantMemory p).rest with wakes := k.rest.wakes ++ [(p, tag)] } } := .wake (Bool.eq_false_iff.mpr fresh)
      refine .of_act (Eq.mp (congrArg _ ?_) act)
      rw [← wakes, same]
      rfl
  · cases e

theorem take_query_effect {h g : Hub} {p : Port} (e : h.takeQuery p = some g) : Effect (.query p) h g := by
  unfold Hub.takeQuery at e
  split at e
  · next tag subject port k taken =>
    cases e
    refine taken_effect taken fun place => ?_
    unfold Hub.answerQuery
    split
    · exact refuse_effect k p tag _ _ place
    split
    · exact refuse_effect k p tag _ _ place
    · exact .of_still (still_answer k p _ place)
  · cases e

theorem take_malformed_effect {h g : Hub} {p : Port} (e : h.takeMalformed p = some g) :
    Effect (.malformedMessage p) h g := by
  unfold Hub.takeMalformed at e
  split at e
  · next m k taken =>
    split at e
    · cases e
      obtain ⟨rest, may, head, rfl⟩ := take_head_cases taken
      exact .after (still_after_taking h p head) (refuse_effect _ p _ _ _ (taken_place may rest))
    · cases e
  · cases e

/-! ### The configuration unit -/

theorem role_check_none {h : Hub} {p : Port} {tag : Byte} {malformed : Bool}
    (passes : h.roleCheck p tag malformed = none) : h.tagInUse p tag = false := by
  unfold Hub.roleCheck at passes
  split at passes
  · cases passes
  split at passes
  · cases passes
  · next fresh => exact Bool.eq_false_iff.mpr fresh

theorem change_check_none {h : Hub} {p : Port} {tag : Byte} {malformed : Bool}
    (passes : h.changeCheck p tag malformed = none) : h.config.change = none := by
  unfold Hub.changeCheck at passes
  split at passes
  · cases passes
  split at passes
  · cases passes
  · next unchanged => simpa using unchanged

theorem commit_check_none {h : Hub} {p : Port} {tag : Byte} {malformed : Bool}
    (passes : h.commitCheck p tag malformed = none) :
    h.tagInUse p tag = false ∧ h.channel ≠ .bringup ∧ h.config.change = none := by
  unfold Hub.commitCheck at passes
  split at passes
  · cases passes
  next role =>
  split at passes
  · cases passes
  · next free =>
    rw [not_or] at free
    exact ⟨role_check_none role, free.1, by simpa using free.2⟩

theorem take_config_set_effect {h g : Hub} {p : Port} (e : h.takeConfigSet p = some g) : Effect (.configSet p) h g := by
  unfold Hub.takeConfigSet at e
  split at e
  · next tag reserved pairs k taken =>
    cases e
    refine taken_effect taken fun place => ?_
    unfold Hub.stage
    split
    · exact refuse_effect k p tag _ _ place
    next passes =>
    split
    · exact refuse_effect k p tag _ _ place
    · exact accept_effect p tag place rfl (.of_act (.stage rfl (change_check_none passes)))
  · cases e

theorem take_config_commit_effect {h g : Hub} {p : Port} (e : h.takeConfigCommit p = some g) :
    Effect (.configCommit p) h g := by
  unfold Hub.takeConfigCommit at e
  split at e
  · next tag force reserved k taken =>
    cases e
    refine taken_effect taken fun place => ?_
    unfold Hub.commit
    split
    · exact refuse_effect k p tag _ _ place
    next free =>
    split
    · exact refuse_effect k p tag _ _ place
    next passes =>
    obtain ⟨fresh, outside, unchanged⟩ := commit_check_none free
    exact .of_act (.commit fresh outside unchanged passes)
  · cases e

theorem take_window_set_effect {h g : Hub} {p : Port} (e : h.takeWindowSet p = some g) : Effect (.windowSet p) h g := by
  unfold Hub.takeWindowSet at e
  split at e
  · next tag port window enable rights reserved base size target k taken =>
    cases e
    refine taken_effect taken fun place => ?_
    unfold Hub.setWindow
    split
    · exact refuse_effect k p tag _ _ place
    next passes =>
    have unchanged := change_check_none passes
    dsimp only
    split
    · exact accept_effect p tag place rfl (.of_act (.disable rfl unchanged))
    split
    · exact refuse_effect k p tag _ _ place
    next inside =>
    split
    · exact refuse_effect k p tag _ _ place
    · next apart =>
      exact accept_effect p tag place rfl (.of_act (.enable (w := ⟨base, size, target, rights.getLsbD 0, rights.getLsbD 1⟩) rfl
        unchanged (Nat.not_lt.mp inside) apart))
  · cases e

theorem give_role_effect {c : Instr} {p : Port} (h : Hub) (q : Port) (command : c = .claim p ∨ c = .handover p)
    (heard : c = .claim q ∨ (h.link q).state = .up) : Effect c h (h.giveRole q) :=
  .before (.of_act (.role command heard)) (still_notify_up _ _ _)

theorem take_handover_effect {h g : Hub} {p : Port} (e : h.takeHandover p = some g) : Effect (.handover p) h g := by
  unfold Hub.takeHandover at e
  split at e
  · next tag target reserved k taken =>
    cases e
    refine taken_effect taken fun place => ?_
    unfold Hub.passRole
    split
    · exact refuse_effect k p tag _ _ place
    dsimp only
    split
    · exact refuse_effect k p tag _ _ place
    next up =>
    split
    · exact accept_effect p tag place rfl (.of_still (.refl k))
    · exact accept_effect p tag place rfl (give_role_effect k _ (.inr rfl) (.inr (by simpa [Hub.up, Hub.link] using up)))
  · cases e

theorem take_claim_effect {h g : Hub} {p : Port} (e : h.takeClaim p = some g) : Effect (.claim p) h g := by
  unfold Hub.takeClaim at e
  split at e
  · next tag reserved k taken =>
    cases e
    refine taken_effect taken fun place => ?_
    unfold Hub.claimRole
    split
    · exact refuse_effect k p tag _ _ place
    split
    · exact refuse_effect k p tag _ _ place
    split
    · exact refuse_effect k p tag _ _ place
    · exact accept_effect p tag place rfl (give_role_effect k p (.inl rfl) (.inl rfl))
  · cases e

theorem take_hub_reset_effect {h g : Hub} {p : Port} (e : h.takeHubReset p = some g) : Effect (.hubReset p) h g := by
  unfold Hub.takeHubReset at e
  split at e
  · next tag reserved k taken =>
    cases e
    refine taken_effect taken fun place => ?_
    unfold Hub.startReset
    split
    · exact refuse_effect k p tag _ _ place
    next free =>
    obtain ⟨fresh, outside, unchanged⟩ := commit_check_none free
    exact .of_act (.hubReset fresh outside unchanged)
  · cases e

theorem end_settle_effect {h g : Hub} (e : h.endSettle = some g) : Effect .settleEnd h g := by
  unfold Hub.endSettle at e
  split at e
  · next r record =>
    split at e
    · next phase =>
      cases e
      exact .after (still_reach h r.settleEnd) (.of_act (.settleEnds (h := h.reach r.settleEnd) record phase))
    · cases e
  · cases e

theorem copy_effect {h g : Hub} (e : h.copy = some g) : Effect .commitCopy h g := by
  have takes := e
  unfold Hub.copy at takes
  split at takes
  · next force geometry p tag torn pending =>
    split at takes
    · next free =>
      rw [← Option.some.inj ((copy_eq pending free.1 free.2).symm.trans e)]
      exact .before (.of_act (.copy rfl pending free.1 free.2)) (still_notify_up _ _ _)
    · cases takes
  · cases takes

theorem reset_event_effect {h g : Hub} (e : h.resetEvent = some g) : Effect .resetEvent h g := by
  have takes := e
  unfold Hub.resetEvent at takes
  split at takes
  · next p tag torn pending =>
    split at takes
    · next free =>
      obtain ⟨burst, flight⟩ := (idle_iff _).mp free.1
      obtain ⟨ms, event, layers⟩ := reset_event_eq pending burst flight free.2.1 free.2.2
      rw [← Option.some.inj (event.symm.trans e)]
      exact .of_act (.reset rfl pending free.1 free.2.2 layers)
    · cases takes
  · cases takes

end Sys2Proof.Safety
end

section
/-! SUPPORT. Every command's effect on the hub is one of the moves: replies and links, the channel, and the timers. -/

namespace Sys2Proof.Safety

open Sys2Proof.Machine

/-! ### Replies and notices -/

theorem place_reply_effect {h g : Hub} {p : Port} (e : h.placeReply p = some g) : Effect (.placeReply p) h g := by
  unfold Hub.placeReply at e
  split at e
  · cases e
  next r rest head =>
  split at e
  · next room =>
    obtain ⟨reply, owner, rfl⟩ := Option.map_eq_some_iff.mp e
    have placed := still_place h p (.reply reply) room
    have owner' : (h.place p (.reply reply)).replyOf r = some reply := by
      rw [← owner]
      cases r <;> rfl
    exact .after placed (.of_act (.placeReply (h := h.place p (.reply reply)) (head := head) owner'))
  · cases e

theorem place_notice_effect {h g : Hub} {p : Port} (e : h.placeNotice p = some g) : Effect (.placeNotice p) h g := by
  unfold Hub.placeNotice at e
  dsimp only at e
  split at e
  · next free =>
    split at e
    · split at e
      · cases e
        exact .of_still ((still_place h p _ free.1).trans (still_on_messages _ p fun _ => ⟨rfl, rfl, rfl⟩))
      · cases e
    · cases e
  · cases e

/-! ### Links -/

theorem heard_still {h k : Hub} {p : Port} {line : List LineSymbol} {b : FrameBody}
    (heard : h.hearGood p line = some (b, k)) : Still h k := by
  obtain ⟨frame, r, _, _, rfl⟩ := hear_good_cases heard
  exact still_on_link h p (.items rfl)

/-- The room that a good frame gives is at most 4 (R169). -/
theorem heard_room {h k : Hub} {p : Port} {line : List LineSymbol} {b : FrameBody}
    (heard : h.hearGood p line = some (b, k)) {room : Nat} (gives : b = .ready room ∨ ∃ n, b = .ack n room) : room ≤ 4 := by
  obtain ⟨frame, r, _, parsed, _⟩ := hear_good_cases heard
  obtain ⟨type, seq, payload, _, meaning⟩ := (parse_frame_iff frame b).mp parsed
  rcases gives with rfl | ⟨n, rfl⟩
  · exact meaning.2.2
  · exact meaning.2.2

theorem message_frame_effect {h g : Hub} {p : Port} {line : List LineSymbol} (e : h.messageFrame p line = some g) :
    Effect (.messageFrameReceived p line) h g := by
  unfold Hub.messageFrame at e
  split at e
  · next heard =>
    split at e <;> cases e
    · next up => exact .of_still ((heard_still heard).trans (still_on_link _ p (.receive_message up _ _ _)))
    · exact .of_still (heard_still heard)
  · cases e

theorem ack_frame_effect {h g : Hub} {p : Port} {line : List LineSymbol} (e : h.ackFrame p line = some g) :
    Effect (.ackReceived p line) h g := by
  unfold Hub.ackFrame at e
  split at e
  · next n room k heard =>
    split at e <;> cases e
    · next up =>
      exact .of_still ((heard_still heard).trans (still_on_link _ p (.receive_ack up _ _ (heard_room heard (.inr ⟨n, rfl⟩)))))
    · exact .of_still (heard_still heard)
  · cases e

theorem nak_frame_effect {h g : Hub} {p : Port} {line : List LineSymbol} (e : h.nakFrame p line = some g) :
    Effect (.nakReceived p line) h g := by
  unfold Hub.nakFrame at e
  split at e
  · next heard =>
    split at e <;> cases e
    · next up => exact .of_still ((heard_still heard).trans (still_on_link _ p (.receive_nak up _ _ _)))
    · exact .of_still (heard_still heard)
  · cases e

theorem align_frame_effect {h g : Hub} {p : Port} {line : List LineSymbol} (e : h.alignFrame p line = some g) :
    Effect (.alignReceived p line) h g := by
  unfold Hub.alignFrame at e
  split at e
  · next heard =>
    split at e <;> cases e
    · exact .after (heard_still heard) (.of_act (.teardown (.inr (.inl ⟨line, rfl⟩))))
    · exact .of_still ((heard_still heard).trans (still_on_link _ p (.items rfl)))
  · cases e

theorem ready_frame_effect {h g : Hub} {p : Port} {line : List LineSymbol} (e : h.readyFrame p line = some g) :
    Effect (.readyReceived p line) h g := by
  unfold Hub.readyFrame at e
  split at e
  · next room k heard =>
    split at e <;> cases e
    · exact .of_still ((heard_still heard).trans (still_on_link _ p (.items rfl)))
    · next training =>
      have seen : Still k (k.onLink p (fun l => { l with step := some .ready, farReady := true, farRoom := room })) :=
        still_on_link k p (.far_room training (heard_room heard (.inl rfl)))
      refine .of_still ((heard_still heard).trans ?_)
      split
      · exact seen.trans (still_link_up _ p (by rw [Hub.onLink_link, if_pos rfl]; exact training))
      · exact seen
  · cases e

theorem corrupt_frame_effect {h g : Hub} {p : Port} {line : List LineSymbol} (e : h.corruptFrame p line = some g) :
    Effect (.corruptFrame p line) h g := by
  unfold Hub.corruptFrame at e
  split at e
  · next f k heard =>
    obtain ⟨r, _, rfl⟩ := hub_hear_cases heard
    have heard' : Still h (h.onLink p (fun l => { l with receiver := r })) := still_on_link h p (.items rfl)
    split at e
    · split at e
      · split at e <;> cases e
        · exact .after heard' (.of_act (.teardown (.inr (.inr ⟨line, rfl⟩))))
        · refine .of_still (heard'.trans (still_on_link _ p ?_))
          dsimp only
          split <;> exact .items rfl
      · cases e
        exact .of_still heard'
    · cases e
  · cases e

theorem training_expiry_effect {h g : Hub} {p : Port} (e : h.trainingExpiry p = some g) :
    Effect (.trainingTimerExpiry p) h g := by
  unfold Hub.trainingExpiry at e
  split at e <;> cases e
  next training _ => exact .of_still ((still_reach h _).trans (still_on_link _ p (.begin_training training _)))

theorem send_align_effect {h g : Hub} {p : Port} (e : h.sendAlign p = some g) : Effect (.alignSent p) h g := by
  unfold Hub.sendAlign at e
  split at e <;> cases e
  exact .of_still (still_on_link h p (.items rfl))

theorem send_ready_effect {h g : Hub} {p : Port} (e : h.sendReady p = some g) : Effect (.readySent p) h g := by
  unfold Hub.sendReady at e
  split at e <;> cases e
  next training =>
  have sent : Still h (h.onLink p (fun l => { l.send (.ready l.room) with readySent := true })) := still_on_link h p (.items rfl)
  refine .of_still ?_
  split
  · exact sent.trans (still_link_up _ p (by rw [Hub.onLink_link, if_pos rfl]; exact training.1))
  · exact sent

theorem send_ack_effect {h g : Hub} {p : Port} (e : h.sendAck p = some g) : Effect (.ackSent p) h g := by
  unfold Hub.sendAck at e
  split at e <;> cases e
  exact .of_still (still_on_link h p (.items rfl))

theorem send_message_effect {h g : Hub} {p : Port} (e : h.sendMessage p = some g) : Effect (.messageFrameSent p) h g := by
  unfold Hub.sendMessage at e
  dsimp only at e
  split at e
  · cases e
  next head =>
  split at e <;> cases e
  next sends => exact .of_still (still_on_link h p (.frame_new sends.1 head sends.2.1 _))

theorem resend_frame_effect {h g : Hub} {p : Port} (e : h.resendFrame p = some g) : Effect (.frameResent p) h g := by
  unfold Hub.resendFrame at e
  dsimp only at e
  split at e
  · cases e
  split at e
  · cases e
  split at e <;> cases e
  exact .of_still (still_on_link h p (.items rfl))

theorem replay_expiry_effect {h g : Hub} {p : Port} (e : h.replayExpiry p = some g) :
    Effect (.replayTimerExpiry p) h g := by
  unfold Hub.replayExpiry at e
  split at e
  · split at e
    · dsimp only at e
      split at e <;> cases e
      · exact .after (still_reach h _) (.of_act (.teardown (.inl rfl)))
      · refine .of_still ((still_reach h _).trans (still_on_link _ p ?_))
        split <;> exact .items rfl
    · cases e
  · cases e

theorem room_expiry_effect {h g : Hub} {p : Port} (e : h.roomExpiry p = some g) : Effect (.roomTimerExpiry p) h g := by
  unfold Hub.roomExpiry at e
  split at e
  · next head =>
    split at e <;> cases e
    next probes =>
    obtain ⟨up, empty⟩ := probes
    exact .of_still ((still_reach h _).trans (still_on_link _ p (.frame_new up head (by rw [show _ = [] from empty]; decide) _)))
  · cases e

/-! ### Banks and bursts -/

theorem row_open_effect {h g : Hub} {b : BankNo} (e : h.issueRowOpen b = some g) : Effect (.rowOpen b) h g := by
  unfold Hub.issueRowOpen at e
  dsimp only at e
  split at e
  · next k x serves =>
    split at e <;> cases e
    next same =>
    exact .after (still_reach h _) (.before (.of_act (.rowOpen _ _ serves)) (still_of_messages rfl rfl rfl))
  · cases e

theorem row_close_effect {h g : Hub} {b : BankNo} (e : h.issueRowClose b = some g) : Effect (.rowClose b) h g := by
  unfold Hub.issueRowClose at e
  dsimp only at e
  split at e
  · next k serves =>
    split at e <;> cases e
    exact .after (still_reach h _) (.before (.of_act (.rowClose _ serves)) (still_of_messages rfl rfl rfl))
  · cases e

theorem bank_opens_effect {h g : Hub} {b : BankNo} (e : h.bankOpens b = some g) : Effect (.bankOpened b) h g := by
  unfold Hub.bankOpens at e
  split at e
  · next k known =>
    split at e <;> cases e
    next t opening _ =>
    exact .after (still_reach h t) (.of_act (.bankOpens (h := h.reach t) _ known opening))
  · cases e

theorem bank_closes_effect {h g : Hub} {b : BankNo} (e : h.bankCloses b = some g) : Effect (.bankClosed b) h g := by
  unfold Hub.bankCloses at e
  split at e
  · next k known =>
    split at e <;> cases e
    next t closing _ =>
    exact .after (still_reach h t) (.of_act (.bankCloses (h := h.reach t) known closing))
  · cases e

theorem pass_open_mark_effect {h g : Hub} {b : BankNo} (e : h.passOpenMark b = some g) : Effect (.openMarkPassed b) h g := by
  unfold Hub.passOpenMark at e
  split at e
  · obtain ⟨t, _, rfl⟩ := Option.map_eq_some_iff.mp e
    exact .of_still (still_reach h t)
  · cases e

theorem pass_write_mark_effect {h g : Hub} {b : BankNo} (e : h.passWriteMark b = some g) :
    Effect (.writeRecoveryMarkPassed b) h g := by
  unfold Hub.passWriteMark at e
  split at e
  · obtain ⟨t, _, rfl⟩ := Option.map_eq_some_iff.mp e
    exact .after (still_reach h t) (.of_act .writeMark)
  · cases e

theorem complete_read_effect {h g : Hub} {flips : List (BitVec 72)} (e : h.completeRead flips = some g) :
    Effect (.colReadComplete flips) h g := by
  unfold Hub.completeRead at e
  split at e
  · next x flying =>
    split at e
    · next kind =>
      split at e <;> cases e
      next entry served =>
      exact .after (still_reach h x.doneAt) (.of_act (.completeRead (h := h.reach x.doneAt) rfl flying kind served))
    · cases e
  · cases e

theorem complete_write_effect {h g : Hub} (e : h.completeWrite = some g) : Effect .colWriteComplete h g := by
  unfold Hub.completeWrite at e
  split at e
  · next x flying =>
    split at e
    · next kind =>
      split at e <;> cases e
      next entry served =>
      exact .after (still_reach h x.doneAt) (.of_act (.completeWrite (h := h.reach x.doneAt) rfl flying kind served))
    · cases e
  · cases e

/-! ### Channel-wide commands -/

/-- A channel-wide command that is ready at the next time the row command lane is free. -/
theorem launch_effect {c : Instr} {h : Hub} {d : ChannelCommand} {command : DramCommand} {periods : Nat}
    (ready : commandReady h.atLane d = true) : Effect c h (h.atLane.launch d command periods) :=
  .after (still_reach h _) (.before (.of_act (.launch _ ready)) (still_of_messages rfl rfl rfl))

theorem issue_all_close_effect {h g : Hub} (e : h.issueAllClose = some g) : Effect .allClose h g := by
  unfold Hub.issueAllClose at e
  dsimp only at e
  split at e <;> cases e
  next ready => exact launch_effect ready

theorem issue_mode_load_effect {h g : Hub} (e : h.issueModeLoad = some g) : Effect .modeLoad h g := by
  unfold Hub.issueModeLoad at e
  dsimp only at e
  split at e <;> cases e
  next ready => exact launch_effect ready

theorem issue_upkeep_effect {h g : Hub} (e : h.issueUpkeep = some g) : Effect .upkeep h g := by
  unfold Hub.issueUpkeep at e
  dsimp only at e
  split at e <;> cases e
  next ready => exact launch_effect ready

theorem issue_retain_exit_effect {h g : Hub} (e : h.issueRetainExit = some g) : Effect .retainExit h g := by
  unfold Hub.issueRetainExit at e
  dsimp only at e
  split at e <;> cases e
  next ready => exact launch_effect ready

theorem issue_retain_enter_effect {h g : Hub} (e : h.issueRetainEnter = some g) : Effect .retainEnter h g := by
  unfold Hub.issueRetainEnter at e
  dsimp only at e
  split at e <;> cases e
  next ready =>
  refine .after (still_reach h _) (.before (.of_act (.retainEnter ready)) (.trans ?_ (still_notify_up _ _ _)))
  exact still_of_messages rfl rfl rfl

theorem complete_all_close_effect {h g : Hub} (e : h.completeAllClose = some g) : Effect .allCloseComplete h g := by
  obtain ⟨k, landed, rfl⟩ := Option.map_eq_some_iff.mp e
  obtain ⟨t, flying⟩ := landed_flight landed
  cases Option.some.inj ((landed_eq flying).symm.trans landed)
  exact .after (still_reach h t) (.of_act (.allClosed (h := h.reach t) flying))

theorem complete_mode_load_effect {h g : Hub} (e : h.completeModeLoad = some g) : Effect .modeLoadComplete h g := by
  obtain ⟨k, landed, rfl⟩ := Option.map_eq_some_iff.mp e
  obtain ⟨t, flying⟩ := landed_flight landed
  cases Option.some.inj ((landed_eq flying).symm.trans landed)
  exact .after (still_reach h t) (.of_act (.modeLoaded (h := h.reach t) flying))

theorem complete_retain_exit_effect {h g : Hub} (e : h.completeRetainExit = some g) : Effect .retainExitComplete h g := by
  obtain ⟨k, landed, rfl⟩ := Option.map_eq_some_iff.mp e
  obtain ⟨t, flying⟩ := landed_flight landed
  cases Option.some.inj ((landed_eq flying).symm.trans landed)
  exact .after (still_reach h t) (.of_act (.retained (h := h.reach t) flying))

theorem complete_upkeep_effect {h g : Hub} (e : h.completeUpkeep = some g) : Effect .upkeepComplete h g := by
  obtain ⟨k, landed, _⟩ := Option.map_eq_some_iff.mp e
  obtain ⟨t, flying⟩ := landed_flight landed
  cases bringup : h.config.bringup with
  | none =>
    rw [complete_upkeep_outside_bringup flying bringup] at e
    cases e
    split
    · next ends => exact .before (.of_act (.leavingEnds flying bringup ends.1 ends.2.2)) (still_notify_up _ _ _)
    · exact .of_act (.paid flying bringup)
  | some r =>
    rw [complete_upkeep_in_bringup flying bringup] at e
    cases e
    split
    · exact .of_act (.bringupEnds flying bringup)
    · exact .of_act (.bringupUpkeep flying bringup)

/-! ### Timers -/

theorem interval_expiry_effect {h g : Hub} (e : h.intervalExpiry = some g) : Effect .intervalTimerExpiry h g := by
  cases timer : h.upkeep.timer with
  | none => simp [Hub.intervalExpiry, timer] at e
  | some t =>
    rw [interval_expiry_eq timer] at e
    cases e
    split
    · exact .after (still_reach h t) (.of_act (.interval (h := h.reach t) _ _ _ timer))
    · refine .after (still_reach h t) (.before (.of_act (.interval (h := h.reach t) (t + h.config.committed.upkeepInterval)
        h.upkeep.debt h.upkeep.level timer)) (.trans (k := intervalPassed h t
          { h.upkeep with overruns := rise32 h.upkeep.overruns }) (still_of_messages rfl rfl rfl) ?_))
      unfold overrunTold
      split
      · exact still_of_links (quiet_notify _ _ _ _ _) rfl
      · exact .refl _

theorem expire_lease_effect {h g : Hub} {id : LeaseId} (e : h.expireLease id = some g) : Effect (.leaseExpiry id) h g := by
  unfold Hub.expireLease at e
  split at e
  · next x found =>
    split at e <;> cases e
    next owner base length mode expiry held =>
    obtain ⟨slot, same⟩ := slot_some found
    have quiet := (still_reach h (expiry * periodsPerMillisecond)).trans (still_lapse _ x)
    have kept : x ∈ ((h.reach (expiry * periodsPerMillisecond)).lapse x).leases.slots := by
      obtain ⟨u, ms, frame, slots, _⟩ := lapse_frame (h.reach (expiry * periodsPerMillisecond)) x
      rw [frame]
      exact slots ▸ slot
    rw [← same]
    exact .after quiet (.of_act (.leave kept held rfl))
  · cases e

theorem pass_deadline_effect {h g : Hub} {p : Port} {tag : Byte} (e : h.passDeadline p tag = some g) :
    Effect (.waitDeadline p tag) h g := by
  unfold Hub.passDeadline at e
  split at e
  · next w found =>
    cases e
    exact .after (still_reach h _) (.of_act (.waitEnds (h := h.reach _) found))
  · split at e <;> cases e
    next id deadline left found =>
    exact .after (still_reach h _) (.of_act (.grantingEnds (h := h.reach _) found))

end Sys2Proof.Safety
end

section
/-! SUPPORT. Laws that every step keeps: the way from the moves to the steps. -/

namespace Sys2Proof.Safety

open Sys2Proof.Machine

/-- What a command run by `State.perform` leaves, given its effect. -/
theorem performed_effect {s t : State} {c : Instr} {f : Hub → Option Hub} (runs : ∀ s, exec c s = s.perform f)
    (e : exec c s = .next t) (effect : ∀ {h g}, f h = some g → Effect c h g) :
    t = s ∨ ∃ g, Effect c s.hub g ∧ t = { s with hub := g.settle } := by
  rcases perform_cases ((runs s).symm.trans e) with same | ⟨g, _, takes, same⟩
  · exact .inl same
  · exact .inr ⟨g, effect takes, same⟩

theorem column_effect {s t : State} {c : Instr} {i : Index} {kind : Access} (e : s.column i kind = .next t) :
    t = s ∨ ∃ g, Effect c s.hub g ∧ t = { s with hub := g.settle } := by
  rcases column_cases e with same | ⟨x, _, granted, _, _, _, same⟩
  · exact .inl same
  · exact .inr ⟨_, .of_act (.startBurst granted), same⟩

/-- All that a command other than the reset line's can leave: the state as it was, or the hub after one of the moves and after
what ends the event. -/
theorem exec_effect {s t : State} {c : Instr} (e : exec c s = .next t) (falls : c ≠ .resetLineAsserted)
    (rises : c ≠ .resetLineReleased) : t = s ∨ ∃ g, Effect c s.hub g ∧ t = { s with hub := g.settle } := by
  cases c with
  | read p => exact performed_effect (exec_read p) e take_read_effect
  | write p => exact performed_effect (exec_write p) e take_write_effect
  | fence p => exact performed_effect (exec_fence p) e take_fence_effect
  | leaseTake p => exact performed_effect (exec_lease_take p) e take_lease_take_effect
  | leaseDrop p => exact performed_effect (exec_lease_drop p) e take_lease_drop_effect
  | leaseRenew p => exact performed_effect (exec_lease_renew p) e take_lease_renew_effect
  | rest p => exact performed_effect (exec_rest p) e take_rest_effect
  | wake p => exact performed_effect (exec_wake p) e take_wake_effect
  | query p => exact performed_effect (exec_query p) e take_query_effect
  | configSet p => exact performed_effect (exec_config_set p) e take_config_set_effect
  | configCommit p => exact performed_effect (exec_config_commit p) e take_config_commit_effect
  | windowSet p => exact performed_effect (exec_window_set p) e take_window_set_effect
  | handover p => exact performed_effect (exec_handover p) e take_handover_effect
  | claim p => exact performed_effect (exec_claim p) e take_claim_effect
  | hubReset p => exact performed_effect (exec_hub_reset p) e take_hub_reset_effect
  | malformedMessage p => exact performed_effect (exec_malformed_message p) e take_malformed_effect
  | placeReply p => exact performed_effect (exec_place_reply p) e place_reply_effect
  | placeNotice p => exact performed_effect (exec_place_notice p) e place_notice_effect
  | messageFrameReceived p line => exact performed_effect (exec_message_frame_received p line) e message_frame_effect
  | ackReceived p line => exact performed_effect (exec_ack_received p line) e ack_frame_effect
  | nakReceived p line => exact performed_effect (exec_nak_received p line) e nak_frame_effect
  | alignReceived p line => exact performed_effect (exec_align_received p line) e align_frame_effect
  | readyReceived p line => exact performed_effect (exec_ready_received p line) e ready_frame_effect
  | corruptFrame p line => exact performed_effect (exec_corrupt_frame p line) e corrupt_frame_effect
  | trainingTimerExpiry p => exact performed_effect (exec_training_timer_expiry p) e training_expiry_effect
  | alignSent p => exact performed_effect (exec_align_sent p) e send_align_effect
  | readySent p => exact performed_effect (exec_ready_sent p) e send_ready_effect
  | ackSent p => exact performed_effect (exec_ack_sent p) e send_ack_effect
  | messageFrameSent p => exact performed_effect (exec_message_frame_sent p) e send_message_effect
  | frameResent p => exact performed_effect (exec_frame_resent p) e resend_frame_effect
  | replayTimerExpiry p => exact performed_effect (exec_replay_timer_expiry p) e replay_expiry_effect
  | roomTimerExpiry p => exact performed_effect (exec_room_timer_expiry p) e room_expiry_effect
  | resetLineAsserted => exact absurd rfl falls
  | resetLineReleased => exact absurd rfl rises
  | rowOpen b => exact performed_effect (exec_row_open b) e row_open_effect
  | rowClose b => exact performed_effect (exec_row_close b) e row_close_effect
  | bankOpened b => exact performed_effect (exec_bank_opened b) e bank_opens_effect
  | bankClosed b => exact performed_effect (exec_bank_closed b) e bank_closes_effect
  | openMarkPassed b => exact performed_effect (exec_open_mark_passed b) e pass_open_mark_effect
  | writeRecoveryMarkPassed b => exact performed_effect (exec_write_recovery_mark_passed b) e pass_write_mark_effect
  | colRead i => exact column_effect e
  | colWrite i => exact column_effect e
  | colReadComplete flips => exact performed_effect (exec_col_read_complete flips) e complete_read_effect
  | colWriteComplete => exact performed_effect exec_col_write_complete e complete_write_effect
  | allClose => exact performed_effect exec_all_close e issue_all_close_effect
  | allCloseComplete => exact performed_effect exec_all_close_complete e complete_all_close_effect
  | modeLoad => exact performed_effect exec_mode_load e issue_mode_load_effect
  | modeLoadComplete => exact performed_effect exec_mode_load_complete e complete_mode_load_effect
  | upkeep => exact performed_effect exec_upkeep e issue_upkeep_effect
  | upkeepComplete => exact performed_effect exec_upkeep_complete e complete_upkeep_effect
  | retainEnter => exact performed_effect exec_retain_enter e issue_retain_enter_effect
  | retainExit => exact performed_effect exec_retain_exit e issue_retain_exit_effect
  | retainExitComplete => exact performed_effect exec_retain_exit_complete e complete_retain_exit_effect
  | intervalTimerExpiry => exact performed_effect exec_interval_timer_expiry e interval_expiry_effect
  | leaseExpiry id => exact performed_effect (exec_lease_expiry id) e expire_lease_effect
  | waitDeadline p tag => exact performed_effect (exec_wait_deadline p tag) e pass_deadline_effect
  | settleEnd => exact performed_effect exec_settle_end e end_settle_effect
  | commitCopy => exact performed_effect exec_commit_copy e copy_effect
  | resetEvent => exact performed_effect exec_reset_event e reset_event_effect

theorem quiet_tick (h : Hub) : Quiet h h.tick := by
  unfold Hub.tick
  split
  · exact .refl h
  · exact quiet_of_messages rfl rfl

/-- A CLAIM takes a message of its own port. -/
def Claimed (c : Instr) (h : Hub) : Prop := ∀ p, c = .claim p → (h.link p).inbound ≠ []

theorem exec_claimed {s t : State} {c : Instr} (e : exec c s = .next t) : t = s ∨ Claimed c s.hub := by
  by_cases claims : ∃ p, c = .claim p
  · obtain ⟨p, rfl⟩ := claims
    rcases perform_cases ((exec_claim p s).symm.trans e) with same | ⟨g, _, takes, _⟩
    · exact .inl same
    · refine .inr fun q own => ?_
      cases own
      unfold Hub.takeClaim at takes
      split at takes
      · next taken =>
        obtain ⟨m, rest, _, head, _⟩ := take_request_cases taken
        rw [head]
        exact List.cons_ne_nil m rest
      · cases takes
  · exact .inr fun p own => absurd ⟨p, own⟩ claims

/-- All that a step can leave of the hub. -/
theorem step_effect {s t : State} (e : step s = .next t) :
    (Quiet s.hub t.hub ∧ t.hub.links = s.hub.links) ∨ (∃ n, t.hub = Hub.powerUp n ∨ t.hub = Hub.inReset n) ∨
      ∃ c g, Effect c s.hub g ∧ Claimed c s.hub ∧ t.hub = g.settle := by
  have unmoved {h : Hub} : Quiet h h ∧ h.links = h.links := ⟨.refl h, rfl⟩
  rcases step_cases e with ⟨_, rfl⟩ | ⟨c, rest, _, run⟩
  · refine .inl ⟨quiet_tick s.hub, ?_⟩
    show s.hub.tick.links = s.hub.links
    unfold Hub.tick
    split <;> rfl
  by_cases falls : c = .resetLineAsserted
  · rw [falls, exec_reset_line_asserted] at run
    split at run <;> cases run
    · exact .inl unmoved
    · exact .inr (.inl ⟨_, .inr rfl⟩)
  by_cases rises : c = .resetLineReleased
  · rw [rises, exec_reset_line_released] at run
    split at run <;> cases run
    · exact .inr (.inl ⟨_, .inl rfl⟩)
    · exact .inl unmoved
  rcases exec_claimed run with rfl | claimed
  · exact .inl unmoved
  rcases exec_effect run falls rises with rfl | ⟨g, effect, rfl⟩
  · exact .inl unmoved
  · exact .inr (.inr ⟨c, g, effect, claimed, rfl⟩)

/-- A law is kept by every step if quiet changes keep it, each move leads from it to a condition of the middle of an event,
which quiet changes keep and from which the end of the event leads back to the law, and the resets give it. -/
theorem kept_by_moves {law middle : Hub → Prop} (quiet : ∀ {h g}, Quiet h g → law h → law g)
    (move : ∀ {c h g}, law h → Act c h g → middle g) (quiet_middle : ∀ {h g}, Quiet h g → middle h → middle g)
    (ends : ∀ {h}, middle h → law h.settle) (power_up : ∀ n, law (Hub.powerUp n)) (in_reset : ∀ n, law (Hub.inReset n)) :
    KeptByEveryStep law := by
  intro s t before e
  rcases step_effect e with ⟨same, _⟩ | ⟨n, up | low⟩ | ⟨c, g, ⟨k, k', first, act, last⟩, _, settled⟩
  · exact quiet same before
  · exact up ▸ power_up n
  · exact low ▸ in_reset n
  · rw [settled]
    exact ends (quiet_middle last.toQuiet (move (quiet first.toQuiet before) act))

end Sys2Proof.Safety
end

section
/-! SUPPORT. Which units a move leaves alone, and a proof of the statement on what only some commands change. -/

namespace Sys2Proof.Safety

open Sys2Proof.Machine

/-! ### Changes of the work alone -/

/-- The hub changes at most in its work: the table, the leases, the message layers, the links and the banks' opened-for
indices. -/
def WorkOnly (h g : Hub) : Prop :=
  ∃ (t : List Entry) (f : Bank → Option Index) (u : LeaseUnit) (ms : Quad MessageLayer) (ls : Quad Link), g =
    { h with
      table := t
      scheduler := { h.scheduler with banks := h.scheduler.banks.map (fun k => { k with openedFor := f k }) }
      leases := u
      messages := ms
      links := ls }

theorem WorkOnly.of_frame {h g : Hub} {t : List Entry} {u : LeaseUnit} {ms : Quad MessageLayer} {ls : Quad Link}
    (same : g = { h with table := t, leases := u, messages := ms, links := ls }) : WorkOnly h g := by
  refine ⟨t, Bank.openedFor, u, ms, ls, ?_⟩
  rw [same, List.map_id'']
  exact fun k => rfl

theorem WorkOnly.refl (h : Hub) : WorkOnly h h := .of_frame rfl

theorem WorkOnly.trans {h k g : Hub} (a : WorkOnly h k) (b : WorkOnly k g) : WorkOnly h g := by
  obtain ⟨t, f, u, ms, ls, rfl⟩ := a
  obtain ⟨t', f', u', ms', ls', rfl⟩ := b
  refine ⟨t', fun k => f' { k with openedFor := f k }, u', ms', ls', ?_⟩
  simp only [List.map_map]
  rfl

theorem work_on_messages (h : Hub) (p : Port) (f : MessageLayer → MessageLayer) : WorkOnly h (h.onMessages p f) :=
  .of_frame rfl

theorem work_answer (h : Hub) (p : Port) (r : Reply) : WorkOnly h (h.answer p r) := by
  obtain ⟨ls, ms, same, _⟩ := answer_frame h p r
  exact .of_frame same

theorem work_remove (h : Hub) (gone : List Index) : WorkOnly h (h.removeEntries gone) := by
  rw [remove_entries_eq]
  exact ⟨_, _, _, _, _, rfl⟩

theorem work_grants (h : Hub) (ids : List LeaseId) : WorkOnly h (ids.foldl Hub.grantIfDrained h) := by
  obtain ⟨u, ms, same⟩ := grants_frame h ids
  exact .of_frame same

theorem work_scan (h : Hub) : WorkOnly h h.scanWaits := by
  obtain ⟨u, ms, same⟩ := scan_waits_frame h
  exact .of_frame same

theorem work_leave (h : Hub) (id : LeaseId) : WorkOnly h (h.leaseLeaves id) := by
  obtain ⟨u, ms, t, same⟩ := lease_leaves_frame h id
  exact .of_frame same

theorem work_free (h : Hub) (gone : List Index) : WorkOnly h (h.freeEntries gone) :=
  (work_remove h gone).trans (work_grants _ _)

theorem work_abort_answered (h : Hub) : WorkOnly h h.abortAnswered := by
  rw [abort_answered_eq (m := quadOf (abortedLayer h)) (quad_of_get _)]
  exact .trans (.of_frame rfl) (work_remove _ _)

theorem work_discard (h : Hub) : WorkOnly h h.discardWork := by
  rw [discard_work_eq (m := quadOf (discardedLayer h)) (quad_of_get _)]
  exact .trans (.of_frame rfl) (work_remove _ _)

theorem work_commit_aborts (h : Hub) (abort geometry : Bool) : WorkOnly h (h.commitAborts abort geometry) := by
  obtain ⟨both, empties, nothing, aborts⟩ := commit_aborts_eq h
  cases abort <;> cases geometry
  · rw [nothing]
    exact .refl h
  · obtain ⟨ms, same, _⟩ := emptied h
    rw [empties]
    exact .of_frame same
  · rw [aborts]
    exact (work_abort_answered h).trans (work_grants _ _)
  · obtain ⟨ms, same, _⟩ := emptied h.abortAnswered
    rw [both]
    exact (work_abort_answered h).trans (.of_frame same)

theorem work_placed (h : Hub) (p : Port) (r : PendingReply) : WorkOnly h (h.placed p r) := by
  cases r with
  | entry tag i => exact (work_on_messages h p _).trans (work_free _ _)
  | fence tag => exact .of_frame rfl
  | _ => exact .refl h

theorem work_place_take (h : Hub) (id : LeaseId) (w : Waiting) : WorkOnly h (h.placeTake id w) := by
  unfold Hub.placeTake
  dsimp only
  split
  · exact .trans (.of_frame rfl) (work_answer _ _ _)
  · exact .of_frame rfl

/-- The completion of a burst changes the work, and frees the data lane. -/
theorem work_complete_burst (h : Hub) (e : Entry) (words : Nat) :
    WorkOnly { h with scheduler := { h.scheduler with burst := none } } (h.completeBurst e words) := by
  unfold Hub.completeBurst
  dsimp only
  split
  · unfold Hub.freeAborting
    dsimp only
    split
    · exact .trans (.of_frame rfl) (.trans (work_on_messages _ _ _) (work_free _ _))
    · exact .trans (.of_frame rfl) (.trans (work_on_messages _ _ _) (work_free _ _))
    · exact .trans (.of_frame rfl) (work_free _ _)
  · split
    · exact .of_frame rfl
    · split
      · exact .of_frame rfl
      · exact .of_frame rfl

/-! ### The memory, the parameter sets, the windows and the role -/

/-- The memory's contents, the parameter sets, the windows and the holder of the control role are the same. -/
structure SameStores (h g : Hub) : Prop where
  data : g.dram.data = h.dram.data
  codes : g.dram.codes = h.dram.codes
  epoch : g.dram.epoch = h.dram.epoch
  committed : g.config.committed = h.config.committed
  staged : g.config.staged = h.config.staged
  windows : g.windows = h.windows
  holder : g.config.holder = h.config.holder

theorem SameStores.refl (h : Hub) : SameStores h h := ⟨rfl, rfl, rfl, rfl, rfl, rfl, rfl⟩

theorem SameStores.trans {h k g : Hub} (a : SameStores h k) (b : SameStores k g) : SameStores h g :=
  ⟨b.data.trans a.data, b.codes.trans a.codes, b.epoch.trans a.epoch, b.committed.trans a.committed,
    b.staged.trans a.staged, b.windows.trans a.windows, b.holder.trans a.holder⟩

theorem SameStores.after {h k g : Hub} (b : SameStores k g) (a : SameStores h k) : SameStores h g := a.trans b

theorem Quiet.stores {h g : Hub} (quiet : Quiet h g) : SameStores h g := by
  rw [quiet.frame]
  exact ⟨rfl, rfl, rfl, rfl, rfl, rfl, rfl⟩

theorem WorkOnly.stores {h g : Hub} (work : WorkOnly h g) : SameStores h g := by
  obtain ⟨t, f, u, ms, ls, rfl⟩ := work
  exact ⟨rfl, rfl, rfl, rfl, rfl, rfl, rfl⟩

theorem stores_want (h : Hub) (p : Port) : SameStores h (h.wantMemory p) := by
  obtain ⟨c, r, u, same, _⟩ := want_memory_frame h p
  rw [same]
  exact ⟨rfl, rfl, rfl, rfl, rfl, rfl, rfl⟩

theorem stores_settle (h : Hub) : SameStores h h.settle := by
  obtain ⟨c, ms, t, r, a, i, j, f, same, _⟩ := settle_frame h
  rw [same]
  exact ⟨rfl, rfl, rfl, rfl, rfl, rfl, rfl⟩

theorem stores_become_serving (h : Hub) : SameStores h h.becomeServing := by
  rw [become_serving_eq]
  exact ⟨rfl, rfl, rfl, rfl, rfl, rfl, rfl⟩

/-- The hub at the end of bring-up (R129), before the channel becomes SERVING. -/
def bringupOver (h : Hub) : Hub :=
  ({ h with
    config := { h.config with bringup := none }
    upkeep := { h.upkeep with debt := 0, level := .clear } } : Hub).loadTimer

/-- The end of bring-up (R129). -/
theorem end_bringup_eq (h : Hub) (r : Bringup) : h.endBringup r =
    if r.torn = true then (served (bringupOver h)).notifyUp .channelState Channel.serving.code
    else ((served (bringupOver h)).notifyUp .channelState Channel.serving.code).defer r.port
      (.commit r.tag (if r.geometry then 1 else 0)) := by
  rw [← become_serving_eq]
  rfl

theorem stores_end_bringup (h : Hub) (r : Bringup) : SameStores h (h.endBringup r) := by
  rw [end_bringup_eq]
  split <;> exact ⟨rfl, rfl, rfl, rfl, rfl, rfl, rfl⟩

/-- Words read with nothing flipped leave the memory as it is. -/
theorem read_words_unflipped (r : ReadProgress) (a : Nat) {flips : List (BitVec 72)} (none_flipped : ∀ f ∈ flips, f = 0)
    (n : Nat) : (r.words a flips n).dram = r.dram := by
  induction n generalizing r a flips with
  | zero => rfl
  | succ n ih =>
    have first : flips.headD 0 = 0 := by
      cases flips with
      | nil => rfl
      | cons f rest => exact none_flipped f (List.mem_cons_self ..)
    have later := ih (r.word a (flips.headD 0)) (a + 8) fun f inside => none_flipped f (List.mem_of_mem_tail inside)
    rw [first] at later
    rw [ReadProgress.words, first, later]
    exact dram_flip_none r.dram a

/-- What the statement on named commands says of the hub before and after. -/
def NamedOnly (c : Instr) (h g : Hub) : Prop :=
  (c ≠ .colWriteComplete → c ≠ .commitCopy → c ≠ .resetEvent → (∀ flips, c = .colReadComplete flips → ∀ f ∈ flips, f = 0) →
      ∀ a, g.dram.byteAt a = h.dram.byteAt a ∧ g.dram.codeAt a = h.dram.codeAt a) ∧
    (c ≠ .commitCopy → c ≠ .resetEvent → g.config.committed = h.config.committed) ∧
    ((∀ p, c ≠ .configSet p) → c ≠ .resetEvent → g.config.staged = h.config.staged) ∧
    ((∀ p, c ≠ .windowSet p) → c ≠ .resetEvent → g.windows = h.windows) ∧
    ((∀ p, c ≠ .claim p ∧ c ≠ .handover p ∧ c ≠ .replayTimerExpiry p ∧ (∀ f, c ≠ .alignReceived p f) ∧
      ∀ f, c ≠ .corruptFrame p f) → g.config.holder = h.config.holder)

theorem SameStores.named {h g : Hub} (same : SameStores h g) (c : Instr) : NamedOnly c h g := by
  refine ⟨fun _ _ _ _ a => ?_, fun _ _ => same.committed, fun _ _ => same.staged, fun _ _ => same.windows,
    fun _ => same.holder⟩
  rw [Dram.byteAt, Dram.byteAt, Dram.codeAt, Dram.codeAt, same.data, same.codes, same.epoch]
  exact ⟨rfl, rfl⟩

theorem NamedOnly.trans {c : Instr} {h k g : Hub} (a : NamedOnly c h k) (b : NamedOnly c k g) : NamedOnly c h g := by
  obtain ⟨cells, committed, staged, windows, holder⟩ := a
  obtain ⟨cells', committed', staged', windows', holder'⟩ := b
  exact ⟨fun w x y z i => ⟨(cells' w x y z i).1.trans (cells w x y z i).1, (cells' w x y z i).2.trans (cells w x y z i).2⟩,
    fun x y => (committed' x y).trans (committed x y), fun x y => (staged' x y).trans (staged x y),
    fun x y => (windows' x y).trans (windows x y), fun x => (holder' x).trans (holder x)⟩

/-- A move changes the memory, the parameter sets, the windows and the role only at the commands that are named for it. -/
theorem Act.named_only {c : Instr} {h g : Hub} (act : Act c h g) : NamedOnly c h g := by
  have same {k : Hub} (stores : SameStores h k) : NamedOnly c h k := stores.named c
  cases act with
  | admits data passes => exact same (.after (stores_want _ _) ⟨rfl, rfl, rfl, rfl, rfl, rfl, rfl⟩)
  | take fresh free unblocked => exact same (work_place_take _ _ _).stores
  | leave slot held granted => exact same (work_leave _ _).stores
  | want => exact same (stores_want _ _)
  | wake fresh =>
    rename_i p tag
    obtain ⟨c', r, u, wanted, _⟩ := want_memory_frame h p
    rw [wanted]
    exact same ⟨rfl, rfl, rfl, rfl, rfl, rfl, rfl⟩
  | stage command => exact ⟨fun _ _ _ _ _ => ⟨rfl, rfl⟩, fun _ _ => rfl, fun not _ => absurd command (not _), fun _ _ => rfl,
      fun _ => rfl⟩
  | commit fresh outside unchanged passes =>
    exact same ((work_commit_aborts _ _ _).stores.trans ⟨rfl, rfl, rfl, rfl, rfl, rfl, rfl⟩)
  | disable command => exact ⟨fun _ _ _ _ _ => ⟨rfl, rfl⟩, fun _ _ => rfl, fun _ _ => rfl,
      fun not _ => absurd command (not _), fun _ => rfl⟩
  | enable command => exact ⟨fun _ _ _ _ _ => ⟨rfl, rfl⟩, fun _ _ => rfl, fun _ _ => rfl,
      fun not _ => absurd command (not _), fun _ => rfl⟩
  | role command => exact ⟨fun _ _ _ _ _ => ⟨rfl, rfl⟩, fun _ _ => rfl, fun _ _ => rfl, fun _ _ => rfl,
      fun not => (command.elim (not _).1 (not _).2.1).elim⟩
  | hubReset fresh outside unchanged => exact same ((work_discard _).stores.trans ⟨rfl, rfl, rfl, rfl, rfl, rfl, rfl⟩)
  | placeReply head owner => exact same (.after (work_placed _ _ _).stores ⟨rfl, rfl, rfl, rfl, rfl, rfl, rfl⟩)
  | teardown command =>
    rename_i p
    obtain ⟨u, ms, torn, _⟩ := teardown_units h p
    rw [torn]
    refine ⟨fun _ _ _ _ _ => ⟨rfl, rfl⟩, fun _ _ => rfl, fun _ _ => rfl, fun _ _ => rfl, fun not => ?_⟩
    obtain ⟨_, _, replay, align, corrupt⟩ := not p
    rcases command with command | ⟨f, command⟩ | ⟨f, command⟩
    · exact absurd command replay
    · exact absurd command (align f)
    · exact absurd command (corrupt f)
  | completeRead command flying kind served =>
    rename_i flips x e
    have stores := (work_complete_burst { h with dram := (readDone h x e flips).dram, check := (readDone h x e flips).check }
      (readDone h x e flips).entry x.words).stores
    refine NamedOnly.trans ?_ (stores.named c)
    refine ⟨fun _ _ _ unflipped a => ?_, fun _ _ => rfl, fun _ _ => rfl, fun _ _ => rfl, fun _ => rfl⟩
    have quiet : (readDone h x e flips).dram = h.dram := read_words_unflipped _ _ (unflipped flips command) _
    exact ⟨congrArg (fun d => d.byteAt a) quiet, congrArg (fun d => d.codeAt a) quiet⟩
  | completeWrite command flying kind served =>
    rename_i x e
    refine NamedOnly.trans ?_ ((work_complete_burst (writeDone h x) e x.words).stores.named c)
    exact ⟨fun not => absurd command not, fun _ _ => rfl, fun _ _ => rfl, fun _ _ => rfl, fun _ => rfl⟩
  | leavingEnds flying outside leaving unchanged =>
    exact same (.after (stores_become_serving _) ⟨rfl, rfl, rfl, rfl, rfl, rfl, rfl⟩)
  | bringupEnds flying inside => exact same (.after (stores_end_bringup _ _) ⟨rfl, rfl, rfl, rfl, rfl, rfl, rfl⟩)
  | waitEnds found => exact same (.after (work_scan _).stores ⟨rfl, rfl, rfl, rfl, rfl, rfl, rfl⟩)
  | grantingEnds found => exact same ((work_leave _ _).stores.trans ⟨rfl, rfl, rfl, rfl, rfl, rfl, rfl⟩)
  | copy command pending idle out =>
    rename_i geometry _ _ _
    refine NamedOnly.trans ((work_commit_aborts h true geometry).stores.named c) ?_
    exact ⟨fun _ not => absurd command not, fun not => absurd command not, fun _ _ => rfl, fun _ _ => rfl, fun _ => rfl⟩
  | reset command pending idle out layers =>
    exact ⟨fun _ _ not => absurd command not, fun _ not => absurd command not, fun _ not => absurd command not,
      fun _ not => absurd command not, fun _ => rfl⟩
  | _ => exact same ⟨rfl, rfl, rfl, rfl, rfl, rfl, rfl⟩

/-- Settles O53: a command that answers a next state makes one move, between changes that touch none of these items. -/
theorem memoryAndControlStateChangeOnlyAtNamedCommands : Obligations.MemoryAndControlStateChangeOnlyAtNamedCommands := by
  intro c s t e falls rises
  rcases exec_effect e falls rises with rfl | ⟨g, ⟨k, k', first, act, last⟩, rfl⟩
  · exact (SameStores.refl _).named c
  · exact (first.stores.named c).trans (act.named_only.trans ((last.stores.trans (stores_settle g)).named c))

end Sys2Proof.Safety
end

section
/-! SUPPORT. What a move does to the entries of the table: which leave, and how those that stay change. -/

namespace Sys2Proof.Safety

open Sys2Proof.Machine

/-! ### How an entry that stays can change -/

/-- No lease in the table of `k` conflicts with the entry. -/
def Unleased (k : Hub) (e : Entry) : Prop :=
  ∀ l, Standing k l → l.conflictsWith e.port e.kind e.addr e.length = false

/-- What happens to an entry that stays in the table, but for bursts: hold reasons leave it, and it is promoted; if its burst
is in flight in `h` it may be marked aborting; LEASE leaves it only if no lease in the table of `k` conflicts with it, and
CHANNEL only where the holds of that kind are cleared. -/
structure Eases (h k : Hub) (clears : Bool) (e e' : Entry) : Prop where
  frame : e' = { e with phase := e'.phase, holds := e'.holds, aborting := e'.aborting }
  phase : e'.phase = e.phase ∨ (e.phase = .held ∧ e'.phase = .queued ∧ e'.holds.lease = false ∧ e'.holds.channel = false)
  mark : e'.aborting = e.aborting ∨ (flying h e = true ∧ e'.aborting ≠ none)
  channel : e'.holds.channel = e.holds.channel ∨ (clears = true ∧ e'.holds.channel = false)
  lease : e'.holds.lease = e.holds.lease ∨ (e'.holds.lease = false ∧ Unleased k e)

theorem Eases.refl (h k : Hub) (clears : Bool) (e : Entry) : Eases h k clears e e :=
  ⟨rfl, .inl rfl, .inl rfl, .inl rfl, .inl rfl⟩

/-- The fields that no easing touches. -/
theorem Eases.fields {h k : Hub} {clears : Bool} {e e' : Entry} (eases : Eases h k clears e e') :
    (e'.index = e.index ∧ e'.port = e.port ∧ e'.tag = e.tag ∧ e'.kind = e.kind) ∧
      e'.addr = e.addr ∧ e'.words = e.words ∧ e'.bank = e.bank ∧ e'.row = e.row := by
  rw [eases.frame]
  exact ⟨⟨rfl, rfl, rfl, rfl⟩, rfl, rfl, rfl, rfl⟩

theorem Eases.index {h k : Hub} {clears : Bool} {e e' : Entry} (eases : Eases h k clears e e') : e'.index = e.index :=
  eases.fields.1.1

theorem Eases.unleased {h k : Hub} {clears : Bool} {e e' : Entry} (eases : Eases h k clears e e') (free : Unleased k e') :
    Unleased k e := by
  rw [eases.frame] at free
  exact free

theorem Eases.active {h k : Hub} {clears : Bool} {e e' : Entry} (eases : Eases h k clears e e') :
    e'.phase = .active ↔ e.phase = .active := by
  rcases eases.phase with same | ⟨held, queued, _⟩
  · rw [same]
  · simp [held, queued]

theorem Eases.done {h k : Hub} {clears : Bool} {e e' : Entry} (eases : Eases h k clears e e') :
    e'.phase = .done ↔ e.phase = .done := by
  rcases eases.phase with same | ⟨held, queued, _⟩
  · rw [same]
  · simp [held, queued]

theorem Eases.unfinished {h k : Hub} {clears : Bool} {e e' : Entry} (eases : Eases h k clears e e') :
    e'.unfinished = e.unfinished := by
  unfold Entry.unfinished
  rcases eases.phase with same | ⟨held, queued, _⟩
  · rw [same]
  · rw [held, queued]
    rfl

theorem Eases.flying {h k : Hub} {clears : Bool} {e e' : Entry} (eases : Eases h k clears e e')
    (flies : Safety.flying h e' = true) : Safety.flying h e = true := by
  simp only [Safety.flying, Bool.and_eq_true, beq_iff_eq] at flies ⊢
  exact ⟨eases.active.mp flies.1, flies.2.trans (by rw [eases.index])⟩

theorem Eases.trans {h k : Hub} {clears : Bool} {a b c : Entry} (first : Eases h k clears a b)
    (second : Eases h k clears b c) : Eases h k clears a c where
  frame := by
    rw [second.frame, first.frame]
  phase := by
    rcases second.phase with same | ⟨held, queued, none_left⟩
    · rcases first.phase with same' | ⟨held, queued, no_lease, no_channel⟩
      · exact .inl (same.trans same')
      · have unleased : c.holds.lease = false := by
          rcases second.lease with kept | ⟨off, _⟩
          · exact kept.trans no_lease
          · exact off
        have open_ : c.holds.channel = false := by
          rcases second.channel with kept | ⟨_, off⟩
          · exact kept.trans no_channel
          · exact off
        exact .inr ⟨held, same.trans queued, unleased, open_⟩
    · rcases first.phase with same' | ⟨_, queued', _⟩
      · exact .inr ⟨same'.symm.trans held, queued, none_left⟩
      · rw [queued'] at held
        cases held
  mark := by
    rcases second.mark with same | ⟨flies, marked⟩
    · rcases first.mark with same' | ⟨flies, marked⟩
      · exact .inl (same.trans same')
      · exact .inr ⟨flies, same ▸ marked⟩
    · exact .inr ⟨first.flying flies, marked⟩
  channel := by
    rcases second.channel with same | ⟨clearing, off⟩
    · rcases first.channel with same' | ⟨clearing, off⟩
      · exact .inl (same.trans same')
      · exact .inr ⟨clearing, same.trans off⟩
    · exact .inr ⟨clearing, off⟩
  lease := by
    rcases second.lease with same | ⟨off, free⟩
    · rcases first.lease with same' | ⟨off, free⟩
      · exact .inl (same.trans same')
      · exact .inr ⟨same.trans off, free⟩
    · exact .inr ⟨off, first.unleased free⟩

/-! ### The ways of easing -/

/-- Other hold reasons, and a promotion. -/
theorem eases_promote (h k : Hub) {clears : Bool} {e : Entry} {x : Holds}
    (channel : x.channel = e.holds.channel ∨ (clears = true ∧ x.channel = false))
    (lease : x.lease = e.holds.lease ∨ (x.lease = false ∧ Unleased k e)) :
    Eases h k clears e { e with holds := x }.promote := by
  rcases promote_cases { e with holds := x } with ⟨held, empty, promoted⟩ | ⟨_, same⟩
  · rw [promoted]
    simp only [Holds.isEmpty, Bool.and_eq_true, Bool.not_eq_true'] at empty
    exact ⟨rfl, .inr ⟨held, rfl, empty.1.2, empty.2⟩, .inl rfl, channel, lease⟩
  · rw [same]
    exact ⟨rfl, .inl rfl, .inl rfl, channel, lease⟩

theorem eases_reordered (h k : Hub) (gone : List Index) (ahead : List Entry) (e : Entry) :
    Eases h k false e (reordered gone ahead e) := by
  rw [reordered_eq]
  split
  · split
    · exact eases_promote h k (.inl rfl) (.inl rfl)
    · exact .refl ..
  · exact .refl ..

theorem eases_marked (h k : Hub) (kind : AbortKind) (e : Entry) : Eases h k false e (markedOf h kind e) := by
  unfold markedOf
  split
  · next flies => exact ⟨rfl, .inl rfl, .inr ⟨flies, by dsimp only; split <;> exact Option.some_ne_none _⟩, .inl rfl, .inl rfl⟩
  · exact .refl ..

theorem eases_torn (h k : Hub) (p : Port) (e : Entry) : Eases h k false e (tornEntry h p e) := by
  unfold tornEntry
  split
  · next flies => exact ⟨rfl, .inl rfl, .inr ⟨flies.2, Option.some_ne_none _⟩, .inl rfl, .inl rfl⟩
  · exact .refl ..

theorem eases_cleared (h k : Hub) (e : Entry) : Eases h k true e (channelCleared e) :=
  eases_promote h k (.inr ⟨rfl, rfl⟩) (.inl rfl)

/-! ### The table -/

/-- The entries of `t'` are those of `t` that are not `gone`, each of them eased. -/
def Eased (h k : Hub) (clears : Bool) (gone : List Index) (t t' : List Entry) : Prop :=
  List.Forall₂ (Eases h k clears) (t.filter (fun e => decide (e.index ∉ gone))) t'

theorem forall_trans {α : Type} {R : α → α → Prop} (trans : ∀ {a b c}, R a b → R b c → R a c) {xs ys zs : List α}
    (first : List.Forall₂ R xs ys) (second : List.Forall₂ R ys zs) : List.Forall₂ R xs zs := by
  induction first generalizing zs with
  | nil => exact second
  | cons related _ ih =>
    cases second with
    | cons related' rest => exact .cons (trans related related') (ih rest)

theorem forall_filter {α : Type} {R : α → α → Prop} {keep : α → Bool} (same : ∀ {a b}, R a b → keep b = keep a)
    {xs ys : List α} (related : List.Forall₂ R xs ys) : List.Forall₂ R (xs.filter keep) (ys.filter keep) := by
  induction related with
  | nil => exact .nil
  | @cons a b _ _ pair _ ih =>
    cases kept : keep a
    · rw [List.filter_cons_of_neg (by simp [kept]), List.filter_cons_of_neg (by simp [same pair, kept])]
      exact ih
    · rw [List.filter_cons_of_pos kept, List.filter_cons_of_pos ((same pair).trans kept)]
      exact .cons pair ih

theorem forall_map {α : Type} {R : α → α → Prop} {f : α → α} (each : ∀ a, R a (f a)) (xs : List α) :
    List.Forall₂ R xs (xs.map f) := by
  rw [List.forall₂_map_right_iff]
  exact List.forall₂_same.mpr fun a _ => each a

theorem eased_all (h k : Hub) (clears : Bool) {t t' : List Entry} (related : List.Forall₂ (Eases h k clears) t t') :
    Eased h k clears [] t t' := by
  unfold Eased
  rw [List.filter_eq_self.mpr (by simp)]
  exact related

theorem eased_refl (h k : Hub) (clears : Bool) (t : List Entry) : Eased h k clears [] t t :=
  eased_all h k clears (List.forall₂_same.mpr fun e _ => .refl h k clears e)

theorem Eased.then {h k : Hub} {clears : Bool} {gone : List Index} {t t' t'' : List Entry}
    (first : Eased h k clears gone t t') (second : List.Forall₂ (Eases h k clears) t' t'') :
    Eased h k clears gone t t'' :=
  forall_trans (fun a b => a.trans b) first second

theorem eases_reorder (h k : Hub) (gone : List Index) (ahead es : List Entry) :
    List.Forall₂ (Eases h k false) es (reorder gone ahead es) := by
  induction es generalizing ahead with
  | nil => exact .nil
  | cons e es ih =>
    rw [reorder_cons]
    exact .cons (eases_reordered h k gone ahead e) (ih _)

/-- Some lease in the table meets a condition. -/
theorem some_lease_iff (h : Hub) (c : Lease → Bool) : someLease h c = true ↔ ∃ l, Standing h l ∧ c l = true := by
  unfold someLease Standing
  rw [List.any_eq_true]
  constructor
  · rintro ⟨x, slot, meets⟩
    cases held : x.lease with
    | none => simp [held] at meets
    | some l => exact ⟨l, ⟨x, slot, held⟩, by simpa [held] using meets⟩
  · rintro ⟨l, ⟨x, slot, held⟩, meets⟩
    exact ⟨x, slot, by simpa [held] using meets⟩

theorem unleased_iff (k : Hub) (e : Entry) :
    k.leases.idsWhere (fun l => l.conflictsWith e.port e.kind e.addr e.length) = [] ↔ Unleased k e := by
  have empty := ids_where_empty k (fun l => l.conflictsWith e.port e.kind e.addr e.length)
  rw [← List.isEmpty_iff, empty, Bool.not_eq_true', ← Bool.not_eq_true, some_lease_iff]
  simp only [Unleased, not_exists, not_and, Bool.not_eq_true]

/-- The entry after the re-check of R88. -/
theorem rechecked_table (g : Hub) : ∃ f, g.recheck.table = g.table.map f ∧
    ∀ e, (e.phase = .held ∧ e.holds.lease = true ∧ Unleased g e ∧
        f e = { e with holds := { e.holds with lease := false } }.promote) ∨
      (¬ (e.phase = .held ∧ e.holds.lease = true ∧ Unleased g e) ∧ f e = e) := by
  refine ⟨_, rfl, fun e => ?_⟩
  split
  · next released => exact .inl ⟨released.1, released.2.1, (unleased_iff g e).mp released.2.2, rfl⟩
  · next stays => exact .inr ⟨by rwa [← unleased_iff], rfl⟩

theorem eases_recheck (h g : Hub) : List.Forall₂ (Eases h g false) g.table g.recheck.table := by
  obtain ⟨f, same, each⟩ := rechecked_table g
  rw [same]
  refine forall_map (fun e => ?_) _
  rcases each e with ⟨_, _, free, changed⟩ | ⟨_, kept⟩
  · rw [changed]
    exact eases_promote h g (.inl rfl) (.inr ⟨rfl, free⟩)
  · rw [kept]
    exact .refl ..

/-- Entries that have been marked leave, and what names them is released. -/
theorem removed_eased {h k g : Hub} (gone : List Index) (marked : List.Forall₂ (Eases h k false) h.table g.table) :
    Eased h k false gone h.table (g.removeEntries gone).table := by
  rw [remove_entries_eq, Hub.release_table]
  refine Eased.then ?_ (eases_reorder h k gone [] _)
  exact forall_filter (fun eases => by rw [eases.index]) marked

@[simp] theorem grants_table (h : Hub) (ids : List LeaseId) : (ids.foldl Hub.grantIfDrained h).table = h.table := by
  obtain ⟨u, ms, same⟩ := grants_frame h ids
  rw [same]

@[simp] theorem scan_table (h : Hub) : h.scanWaits.table = h.table := by
  obtain ⟨u, ms, same⟩ := scan_waits_frame h
  rw [same]

theorem freed_eased {h k g : Hub} (gone : List Index) (marked : List.Forall₂ (Eases h k false) h.table g.table) :
    Eased h k false gone h.table (g.freeEntries gone).table := by
  rw [Hub.freeEntries, Hub.grantDrained, grants_table]
  exact removed_eased gone marked

theorem leave_eased (h : Hub) (id : LeaseId) :
    Eased h (h.freeSlots (fun x => x.id == id)) false [] h.table (h.leaseLeaves id).table := by
  rw [Hub.leaseLeaves, scan_table]
  exact eased_all _ _ _ (eases_recheck h _)

theorem abort_answered_eased (h k : Hub) :
    Eased h k false ((freedOf h).map Entry.index) h.table h.abortAnswered.table := by
  rw [abort_answered_eq (m := quadOf (abortedLayer h)) (quad_of_get _)]
  exact removed_eased _ (forall_map (eases_marked h k .answered) _)

theorem empty_leases_table (h : Hub) : h.emptyLeases.table = h.table := by
  obtain ⟨ms, same, _⟩ := emptied h
  rw [same]

/-- The indices of the entries that a commit's aborts free. -/
def abortsFree (h : Hub) (abort : Bool) : List Index := if abort = true then (freedOf h).map Entry.index else []

theorem commit_aborts_eased (h k : Hub) (abort geometry : Bool) :
    Eased h k false (abortsFree h abort) h.table (h.commitAborts abort geometry).table := by
  obtain ⟨both, empties, nothing, aborts⟩ := commit_aborts_eq h
  cases abort <;> cases geometry
  · rw [nothing]
    exact eased_refl ..
  · rw [empties, empty_leases_table]
    exact eased_refl ..
  · rw [aborts, Hub.grantDrained, grants_table]
    exact abort_answered_eased h k
  · rw [both, empty_leases_table]
    exact abort_answered_eased h k

theorem discard_eased (h k : Hub) : Eased h k false ((freedOf h).map Entry.index) h.table h.discardWork.table := by
  rw [discard_work_eq (m := quadOf (discardedLayer h)) (quad_of_get _)]
  exact removed_eased _ (forall_map (eases_marked h k .silent) _)

/-- The hub in the middle of a teardown, whose leases decide the re-check. -/
def portFreed (h : Hub) (p : Port) : Hub := (portCleared h p).removeEntries ((freedAt h p).map Entry.index)

theorem teardown_table (h : Hub) (p : Port) : (h.teardown p).table = (portRechecked h p).table := by
  obtain ⟨u, ms, same, _⟩ := teardown_units h p
  rw [same]

theorem teardown_eased (h : Hub) (p : Port) :
    Eased h (portFreed h p) false ((freedAt h p).map Entry.index) h.table (h.teardown p).table := by
  rw [teardown_table]
  exact (removed_eased (g := portCleared h p) _ (forall_map (eases_torn h _ p) _)).then (eases_recheck h (portFreed h p))

theorem served_eased (h k : Hub) : Eased h k true [] h.table (served h).table :=
  eased_all _ _ _ (forall_map (eases_cleared h k) _)

/-! ### What the easing of a table keeps -/

/-- What no easing touches is that of the entries that stay. -/
theorem Eased.map_eq {β : Type} {h k : Hub} {clears : Bool} {gone : List Index} {t t' : List Entry}
    (eased : Eased h k clears gone t t') (f : Entry → β) (same : ∀ {e e'}, Eases h k clears e e' → f e' = f e) :
    t'.map f = (t.filter (fun e => decide (e.index ∉ gone))).map f := by
  unfold Eased at eased
  generalize t.filter _ = kept at eased
  induction eased with
  | nil => rfl
  | cons pair _ ih => rw [List.map_cons, List.map_cons, ih, same pair]

/-- An entry of the table afterwards is one that has stayed. -/
theorem Eased.before {h k : Hub} {clears : Bool} {gone : List Index} {t t' : List Entry} (eased : Eased h k clears gone t t')
    {e' : Entry} (member : e' ∈ t') : ∃ e ∈ t, e.index ∉ gone ∧ Eases h k clears e e' := by
  unfold Eased at eased
  have listed (e : Entry) (kept : e ∈ t.filter (fun e => decide (e.index ∉ gone))) : e ∈ t ∧ e.index ∉ gone := by
    simpa using List.mem_filter.mp kept
  generalize t.filter _ = kept at eased listed
  induction eased with
  | nil => cases member
  | @cons a b _ _ pair _ ih =>
    rcases List.mem_cons.mp member with rfl | later
    · obtain ⟨inTable, stays⟩ := listed a List.mem_cons_self
      exact ⟨a, inTable, stays, pair⟩
    · exact ih later fun e inside => listed e (List.mem_cons_of_mem _ inside)

/-- An entry that is not gone stays. -/
theorem Eased.after {h k : Hub} {clears : Bool} {gone : List Index} {t t' : List Entry} (eased : Eased h k clears gone t t')
    {e : Entry} (member : e ∈ t) (stays : e.index ∉ gone) : ∃ e' ∈ t', Eases h k clears e e' := by
  unfold Eased at eased
  have listed : e ∈ t.filter (fun e => decide (e.index ∉ gone)) := List.mem_filter.mpr ⟨member, by simpa using stays⟩
  generalize t.filter _ = kept at eased listed
  induction eased with
  | nil => cases listed
  | @cons a b _ _ pair _ ih =>
    rcases List.mem_cons.mp listed with rfl | later
    · exact ⟨b, List.mem_cons_self, pair⟩
    · obtain ⟨e', inside, eases⟩ := ih later
      exact ⟨e', List.mem_cons_of_mem _ inside, eases⟩

end Sys2Proof.Safety
end

section
/-! SUPPORT. The moves by what they do to the table: entries are eased and leave, one enters, a burst starts, a burst
completes. -/

namespace Sys2Proof.Safety

open Sys2Proof.Machine

/-! ### Bursts -/

/-- What the start of a burst of entry `i` does to an entry. -/
structure Starts (i : Index) (e e' : Entry) : Prop where
  frame : e' = { e with phase := e'.phase, passed := e'.passed }
  phase : e'.phase = if e.index = i then .active else e.phase

theorem raise_passed_starts (k : Bank) (e : Entry) (es : List Entry) :
    List.Forall₂ (fun x x' : Entry => ∃ n, x' = { x with passed := n }) es (raisePassed k e es) := by
  induction es with
  | nil => exact .nil
  | cons x rest ih =>
    unfold raisePassed
    split
    · exact List.forall₂_same.mpr fun y _ => ⟨y.passed, rfl⟩
    · refine .cons ?_ ih
      split
      · exact ⟨_, rfl⟩
      · exact ⟨x.passed, rfl⟩

theorem start_burst_table (h : Hub) (e : Entry) :
    List.Forall₂ (Starts e.index) h.table (h.startBurst e).table := by
  have raised : List.Forall₂ (fun x x' : Entry => ∃ n, x' = { x with passed := n }) h.table
      (if (e.wordsDone == 0) = true then raisePassed ((h.scheduler.banks[e.bank]?).getD Bank.closedRecord) e h.table
        else h.table) := by
    split
    · exact raise_passed_starts _ e h.table
    · exact List.forall₂_same.mpr fun y _ => ⟨y.passed, rfl⟩
  have placed : (h.startBurst e).table = updateEntry
      (if (e.wordsDone == 0) = true then raisePassed ((h.scheduler.banks[e.bank]?).getD Bank.closedRecord) e h.table
        else h.table) e.index (fun e => { e with phase := .active }) := rfl
  rw [placed, updateEntry, List.forall₂_map_right_iff]
  refine raised.imp fun x x' same => ?_
  obtain ⟨n, rfl⟩ := same
  dsimp only
  split
  · next own => exact ⟨rfl, (if_pos own).symm⟩
  · next own => exact ⟨rfl, (if_neg own).symm⟩

/-- The entry `f` is `e` with more words done. -/
def Progress (e f : Entry) : Prop :=
  f = { e with wordsDone := f.wordsDone, buffer := f.buffer, status := f.status, flagged := f.flagged }

/-- The table with the entry of index `i` replaced. -/
def putAt (t : List Entry) (i : Index) (f : Entry) : List Entry := t.map (fun z => if z.index = i then f else z)

/-- A bank record but for its write-recovery mark. -/
def unmarked (k : Bank) : Bank := { k with writeMark := none }

/-- The completion of a burst: the words are read or stored, and the outcome is that of the entry it serves. -/
def Completes (h g : Hub) : Prop :=
  ∃ x e f d c b, h.scheduler.burst = some x ∧ h.entry x.entry = some e ∧ Progress e f ∧
    b.map unmarked = h.scheduler.banks.map unmarked ∧
    g = burstOutcome { h with dram := d, check := c, scheduler := { h.scheduler with banks := b } } e.index f

theorem completes_of_read {h : Hub} {flips : List (BitVec 72)} {x : Burst} {e : Entry} (flying : h.scheduler.burst = some x)
    (served : h.entry x.entry = some e) :
    Completes h ({ h with dram := (readDone h x e flips).dram, check := (readDone h x e flips).check }.completeBurst
      (readDone h x e flips).entry x.words) := by
  obtain ⟨buffer, status, flagged, same⟩ := read_words_entry ⟨h.dram, h.check, e⟩ x.addr flips x.words
  have progress : (readDone h x e flips).entry = { e with buffer := buffer, status := status, flagged := flagged } := same
  refine ⟨x, e, { (readDone h x e flips).entry with wordsDone := (readDone h x e flips).entry.wordsDone + x.words },
    (readDone h x e flips).dram, (readDone h x e flips).check, h.scheduler.banks, flying, served, ?_, rfl,
    (complete_burst_eq _ _ _).trans ?_⟩
  · rw [progress]
    rfl
  · have index : (readDone h x e flips).entry.index = e.index := by rw [progress]
    exact congrArg (fun i => burstOutcome { h with dram := (readDone h x e flips).dram, check := (readDone h x e flips).check }
      i { (readDone h x e flips).entry with wordsDone := (readDone h x e flips).entry.wordsDone + x.words }) index

/-- What a change of one item does not touch. -/
theorem map_modify_same {α β : Type} {F : α → β} {f : α → α} (same : ∀ a, F (f a) = F a) (xs : List α) (n : Nat) :
    (xs.modify n f).map F = xs.map F := by
  induction xs generalizing n with
  | nil => cases n <;> rfl
  | cons x xs ih =>
    cases n with
    | zero => exact congrArg (· :: _) (same x)
    | succ n => exact congrArg (F x :: ·) (ih n)

theorem modify_unmarked (banks : List Bank) (n : Nat) (t : Nat) :
    (banks.modify n (fun k => { k with writeMark := some t })).map unmarked = banks.map unmarked :=
  map_modify_same (F := unmarked) (f := fun k => { k with writeMark := some t }) (fun _ => rfl) banks n

theorem completes_of_write {h : Hub} {x : Burst} {e : Entry} (flying : h.scheduler.burst = some x)
    (served : h.entry x.entry = some e) : Completes h ((writeDone h x).completeBurst e x.words) := by
  refine ⟨x, e, { e with wordsDone := e.wordsDone + x.words }, (writeDone h x).dram, h.check, _, flying, served, rfl,
    modify_unmarked h.scheduler.banks x.bank (h.now + h.config.committed.tWriteRecover), complete_burst_eq _ _ _⟩

/-! ### A fence that leaves -/

/-- The fences-ahead count of an entry falls by one, if it is of the port (R19). -/
def fenceGone (p : Port) (e : Entry) : Entry :=
  if e.port = p then { e with holds := { e.holds with fencesAhead := e.holds.fencesAhead - 1 } }.promote else e

theorem fence_eased (h k : Hub) (p : Port) : Eased h k false [] h.table (h.table.map (fenceGone p)) := by
  refine eased_all _ _ _ (forall_map (fun e => ?_) _)
  unfold fenceGone
  split
  · exact eases_promote h k (.inl rfl) (.inl rfl)
  · exact .refl ..

/-! ### The moves by what they do to the table -/

/-- What a move does to the table. -/
inductive TableMove (h g : Hub) : Prop
  | eased {k : Hub} {clears : Bool} {gone : List Index} (eased : Eased h k clears gone h.table g.table)
      (serving : clears = true → g.channel = .serving)
  | admits {p kind tag words reserved addr a i} (data : List Word)
      (passes : h.admission p kind tag words reserved addr = .ok (a, i))
      (same : g.table = h.table ++ [admitted h p kind tag words a i data])
  | starts {e} (granted : h.grant = some e) (same : g.table = (h.startBurst e).table)
  | completes (completes : Completes h g)

theorem TableMove.same {h g : Hub} (same : g.table = h.table) : TableMove h g :=
  .eased (k := h) (clears := false) (gone := []) (same ▸ eased_refl h h false h.table) fun no => by cases no

theorem TableMove.keeps {h k g : Hub} {gone : List Index} (eased : Eased h k false gone h.table g.table) : TableMove h g :=
  .eased eased fun no => by cases no

theorem want_memory_table (h : Hub) (p : Port) : (h.wantMemory p).table = h.table := by
  obtain ⟨c, r, u, same, _⟩ := want_memory_frame h p
  rw [same]

/-- A request that occupies a slot at its taking: it is granted at once, or its tag joins the tag set. -/
theorem place_take_cases (h : Hub) (id : LeaseId) (w : Waiting) :
    (drainSet h.table w.port w.mode w.base w.length = [] ∧
      Quiet ((h.occupySlot id w).startLease id w.duration) (h.placeTake id w)) ∨
    (drainSet h.table w.port w.mode w.base w.length ≠ [] ∧
      h.placeTake id w = (h.occupySlot id w).addTag w.port w.tag) := by
  by_cases drained : drainSet h.table w.port w.mode w.base w.length = []
  · refine .inl ⟨drained, ?_⟩
    unfold Hub.placeTake
    dsimp only
    rw [if_pos (show drainSet (h.occupySlot id w).table w.port w.mode w.base w.length = [] from drained)]
    exact quiet_answer _ _ _
  · exact .inr ⟨drained, if_neg drained⟩

theorem place_take_table (h : Hub) (id : LeaseId) (w : Waiting) : (h.placeTake id w).table = h.table := by
  rcases place_take_cases h id w with ⟨_, quiet⟩ | ⟨_, same⟩
  · rw [quiet.frame]
    rfl
  · rw [same]
    rfl

theorem Act.table_move {c : Instr} {h g : Hub} (act : Act c h g) : TableMove h g := by
  cases act with
  | admits data passes => exact .admits data passes (want_memory_table _ _)
  | take fresh free unblocked => exact .same (place_take_table _ _ _)
  | leave slot held granted => exact .keeps (leave_eased _ _)
  | want => exact .same (want_memory_table _ _)
  | wake fresh => exact .same (want_memory_table _ _)
  | commit fresh outside unchanged passes => exact .keeps (commit_aborts_eased h h _ _)
  | hubReset fresh outside unchanged => exact .keeps (discard_eased h h)
  | @placeReply p r rest reply head owner =>
    cases r with
    | entry tag i => exact .keeps (freed_eased (h := h) (k := h) [i] (List.forall₂_same.mpr fun e _ => .refl ..))
    | fence tag => exact .keeps (fence_eased h h p)
    | _ => exact .same rfl
  | teardown command => exact .keeps (teardown_eased h _)
  | startBurst granted => exact .starts granted rfl
  | completeRead command flying kind served => exact .completes (completes_of_read flying served)
  | completeWrite command flying kind served => exact .completes (completes_of_write flying served)
  | leavingEnds flying outside leaving unchanged =>
    rw [become_serving_eq]
    exact .eased (served_eased h h) fun _ => rfl
  | bringupEnds flying inside =>
    rw [end_bringup_eq]
    split <;> exact .eased (served_eased h h) fun _ => rfl
  | waitEnds found => exact .same (scan_table _)
  | grantingEnds found => exact .keeps (leave_eased _ _)
  | copy command pending idle out => exact .keeps (commit_aborts_eased h h true _)
  | reset command pending idle out layers =>
    refine .keeps (gone := h.table.map Entry.index) (k := h) ?_
    have none_left : h.table.filter (fun e => decide (e.index ∉ h.table.map Entry.index)) = [] :=
      List.filter_eq_nil_iff.mpr fun e member => by simpa using ⟨e, member, rfl⟩
    rw [Eased, none_left]
    exact .nil
  | _ => exact .same rfl

/-! ### The outcome of a completed burst on the table -/

/-- The hub once the burst of an entry with the aborting mark is over and what the abort owes is done (R22 to R25). -/
def abortPaid (m : Hub) (i : Index) (f : Entry) : AbortKind → Hub
  | .answered => (entryPut m i f).onMessages f.port (fun n => { n with replies := answered n.replies (f.tag, f.wordsDone) })
  | .silent => (entryPut m i f).onMessages f.port (fun n => { n with tags := n.tags.filter (fun t => t != f.tag) })
  | .torn => entryPut m i f

theorem outcome_aborting (m : Hub) (i : Index) {f : Entry} {kind : AbortKind} (mark : f.aborting = some kind) :
    burstOutcome m i f = (abortPaid m i f kind).freeEntries [i] := by
  unfold burstOutcome
  rw [mark]
  cases kind <;> rfl

/-- The outcome of a burst whose entry has no aborting mark (R15, R48, R67). -/
theorem outcome_unmarked (m : Hub) (i : Index) {f : Entry} (mark : f.aborting = none) : burstOutcome m i f =
    if f.words ≤ f.wordsDone then
      ((entryPut m i { f with phase := .done }).defer f.port (.entry f.tag i)).release [i]
    else if m.upkeep.items.stop = true then entryPut m i { f with phase := .queued }
    else entryPut m i f := by
  unfold burstOutcome
  rw [mark]

theorem abort_paid_table (m : Hub) (i : Index) (f : Entry) (kind : AbortKind) :
    (abortPaid m i f kind).table = putAt m.table i f ∧ (abortPaid m i f kind).scheduler.burst = none := by
  cases kind <;> exact ⟨rfl, rfl⟩

/-- The entry that the burst serves takes its place, and is eased or leaves. -/
theorem outcome_eased (m : Hub) (i : Index) (f : Entry) : ∃ X phase gone,
    X.table = putAt m.table i { f with phase := phase } ∧ X.scheduler.burst = none ∧
      Eased X X false gone X.table (burstOutcome m i f).table ∧
      ((f.aborting ≠ none ∧ phase = f.phase ∧ gone = [i]) ∨
        (f.aborting = none ∧ gone = [] ∧
          (phase = .done ∨ phase = f.phase ∨ (phase = .queued ∧ m.upkeep.items.stop = true)) ∧
          (f.words ≤ f.wordsDone → phase = .done))) := by
  obtain mark | ⟨kind, mark⟩ := Option.eq_none_or_eq_some f.aborting
  · rw [outcome_unmarked m i mark]
    split
    · refine ⟨entryPut m i { f with phase := .done }, .done, [], rfl, rfl, ?_, .inr ⟨mark, rfl, .inl rfl, fun _ => rfl⟩⟩
      exact eased_all _ _ _ (eases_reorder _ _ [i] [] _)
    · next more =>
      split
      · next stop =>
        exact ⟨entryPut m i { f with phase := .queued }, .queued, [], rfl, rfl, eased_refl ..,
          .inr ⟨mark, rfl, .inr (.inr ⟨rfl, stop⟩), fun all => absurd all more⟩⟩
      · exact ⟨entryPut m i f, f.phase, [], rfl, rfl, eased_refl .., .inr ⟨mark, rfl, .inr (.inl rfl), fun all => absurd all more⟩⟩
  · rw [outcome_aborting m i mark]
    obtain ⟨table, free⟩ := abort_paid_table m i f kind
    refine ⟨abortPaid m i f kind, f.phase, [i], table, free, ?_, .inl ⟨by simp [mark], rfl, rfl⟩⟩
    exact freed_eased [i] (List.forall₂_same.mpr fun e _ => .refl ..)

/-- What an entry keeps in its place. -/
theorem put_map_eq {β : Type} {t : List Entry} {e f : Entry} (F : Entry → β) (apart : (t.map Entry.index).Nodup)
    (member : e ∈ t) (same : F f = F e) : (putAt t e.index f).map F = t.map F := by
  rw [putAt, List.map_map]
  refine List.map_congr_left fun z inside => ?_
  simp only [Function.comp]
  split
  · next own => rw [List.inj_on_of_nodup_map apart inside member own, same]
  · rfl

/-- The fields of entries that no move changes. -/
def Lasting {β : Type} (F : Entry → β) : Prop :=
  ∀ (e : Entry) (wordsDone : Nat) (phase : Phase) (holds : Holds) (passed : Nat) (aborting : Option AbortKind)
    (status : DataStatus) (flagged : Nat) (buffer : List Word),
    F { e with
      wordsDone := wordsDone, phase := phase, holds := holds, passed := passed, aborting := aborting, status := status
      flagged := flagged, buffer := buffer } = F e

theorem Lasting.eased {β : Type} {F : Entry → β} (lasting : Lasting F) {h k : Hub} {clears : Bool} {gone : List Index}
    {t t' : List Entry} (eased : Eased h k clears gone t t') :
    t'.map F = (t.filter (fun e => decide (e.index ∉ gone))).map F :=
  eased.map_eq F fun {e e'} eases => by
    rw [eases.frame]
    exact lasting e e.wordsDone e'.phase e'.holds e.passed e'.aborting e.status e.flagged e.buffer

theorem Lasting.starts {β : Type} {F : Entry → β} (lasting : Lasting F) {i : Index} {t t' : List Entry}
    (starts : List.Forall₂ (Starts i) t t') : t'.map F = t.map F := by
  induction starts with
  | nil => rfl
  | @cons e e' _ _ pair _ ih =>
    rw [List.map_cons, List.map_cons, ih, pair.frame]
    exact congrArg (· :: _) (lasting e e.wordsDone e'.phase e.holds e'.passed e.aborting e.status e.flagged e.buffer)

theorem Lasting.progress {β : Type} {F : Entry → β} (lasting : Lasting F) {e f : Entry} (progress : Progress e f)
    (phase : Phase) : F { f with phase := phase } = F e := by
  rw [progress]
  exact lasting e f.wordsDone phase e.holds e.passed e.aborting f.status f.flagged f.buffer

/-- Of what no move changes, a move but for an admission leaves a sublist. -/
theorem TableMove.lasting {β : Type} {F : Entry → β} (lasting : Lasting F) {h g : Hub} (law : IndexLaw h)
    (move : TableMove h g) : (g.table.map F).Sublist (h.table.map F) ∨
      ∃ (p : Port) (kind : Access) (tag : Byte) (words reserved addr a : Nat) (i : Index) (data : List Word),
        h.admission p kind tag words reserved addr = .ok (a, i) ∧
          g.table = h.table ++ [admitted h p kind tag words a i data] := by
  cases move with
  | eased eased _ =>
    rw [lasting.eased eased]
    exact .inl (List.filter_sublist.map F)
  | admits data passes same => exact .inr ⟨_, _, _, _, _, _, _, _, data, passes, same⟩
  | starts granted same =>
    rw [same, lasting.starts (start_burst_table _ _)]
    exact .inl (.refl _)
  | completes completes =>
    obtain ⟨x, e, f, d, c, b, burst, found, progress, _, rfl⟩ := completes
    obtain ⟨member, _⟩ := (entry_eq_some_iff law).mp found
    obtain ⟨X, phase, gone, put, _, eased, _⟩ := outcome_eased
      { h with dram := d, check := c, scheduler := { h.scheduler with banks := b } } e.index f
    rw [lasting.eased eased]
    refine .inl ((List.filter_sublist.map F).trans ?_)
    rw [put, put_map_eq F law member (lasting.progress progress phase)]

theorem admission_fresh {h : Hub} {p : Port} {kind : Access} {tag : Byte} {words reserved addr a : Nat} {i : Index}
    (passes : h.admission p kind tag words reserved addr = .ok (a, i)) :
    h.tagInUse p tag = false ∧ h.channel ≠ .unready ∧ h.freeIndex = some i ∧
      h.occupied p < h.config.committed.quota.get p ∧ h.ownGuards p kind a (words * 8) = [] := by
  unfold Hub.admission at passes
  dsimp only at passes
  split at passes
  · cases passes
  · split at passes
    · cases passes
    · next fresh =>
      split at passes
      · cases passes
      · next ready =>
        split at passes
        · cases passes
        · split at passes
          · cases passes
          · split at passes
            · cases passes
            · next free =>
              split at passes
              · cases passes
              · next room =>
                split at passes
                · cases passes
                · next unguarded =>
                  cases passes
                  refine ⟨by simpa using fresh, ready, free, by omega, ?_⟩
                  by_contra guarded
                  exact unguarded (.inl guarded)

@[simp] theorem admitted_index (h : Hub) (p : Port) (kind : Access) (tag : Byte) (words a : Nat) (i : Index)
    (data : List Word) : (admitted h p kind tag words a i data).index = i := promote_index _

@[simp] theorem admitted_port (h : Hub) (p : Port) (kind : Access) (tag : Byte) (words a : Nat) (i : Index)
    (data : List Word) : (admitted h p kind tag words a i data).port = p := promote_port _

/-- A move keeps the indices apart (R3). -/
theorem TableMove.index_law {h g : Hub} (law : IndexLaw h) (move : TableMove h g) : IndexLaw g := by
  rcases move.lasting (F := Entry.index) (fun _ _ _ _ _ _ _ _ _ => rfl) law with
    sub | ⟨p, kind, tag, words, reserved, addr, a, i, data, passes, same⟩
  · exact law.sublist sub
  · obtain ⟨_, _, free, _⟩ := admission_fresh passes
    unfold IndexLaw
    rw [same, List.map_append, List.map_singleton, admitted_index, List.nodup_append]
    refine ⟨law, List.nodup_singleton _, ?_⟩
    rintro _ listed _ own rfl
    obtain ⟨e, member, rfl⟩ := List.mem_map.mp listed
    exact (free_index_eq_some_iff.mp free).1 e member (List.mem_singleton.mp own)

end Sys2Proof.Safety
end

section
/-! SUPPORT. The moves by what they do to the parameter sets and the windows, and a proof of the statement on quotas, the
ACTIVE entry and windows. -/

namespace Sys2Proof.Safety

open Sys2Proof.Machine

/-! ### The parameter sets, the windows and the pending commit -/

/-- A commit is pending. -/
def CommitPends (h : Hub) : Prop := ∃ c f d, h.config.change = some c ∧ c.kind = .commit f d

/-- What a move does to the parameter sets, the windows and the pending commit. -/
inductive PlanMove (h g : Hub) : Prop
  | same (committed : g.config.committed = h.config.committed) (staged : g.config.staged = h.config.staged)
      (windows : g.windows = h.windows) (pending : CommitPends g → CommitPends h)
  | stage (committed : g.config.committed = h.config.committed) (windows : g.windows = h.windows)
      (unchanged : g.config.change = none)
  | disable (n k : Port) (config : g.config = h.config) (unchanged : g.config.change = none)
      (windows : g.windows = h.windows.upd n (fun ws => ws.set k none))
  | enable (n k : Port) (w : Window) (config : g.config = h.config) (unchanged : g.config.change = none)
      (windows : g.windows = h.windows.upd n (fun ws => ws.set k (some w)))
      (inside : w.target + w.size ≤ h.config.committed.memorySize)
      (apart : (((h.windows.get n).set k none).toList).findIdx? (overlapsWindow w.base w.size) = none)
  | commit (force : Bool) (committed : g.config.committed = h.config.committed)
      (staged : g.config.staged = h.config.staged) (windows : g.windows = h.windows)
      (passes : h.crossCheck force = none)
  | copy (pending : CommitPends h) (committed : g.config.committed = h.config.staged) (unchanged : g.config.change = none)
      (windows : g.windows = h.windows) (empty : g.table = [])
  | reset (committed : g.config.committed = Params.default) (unchanged : g.config.change = none)
      (windows : g.windows = Quad.all Window.powerUp) (empty : g.table = [])

theorem PlanMove.of_config {h g : Hub} (config : g.config = h.config) (windows : g.windows = h.windows) : PlanMove h g :=
  .same (by rw [config]) (by rw [config]) windows (by unfold CommitPends; rw [config]; exact id)

theorem WorkOnly.plan {h g : Hub} (work : WorkOnly h g) : PlanMove h g := by
  obtain ⟨t, f, u, ms, ls, rfl⟩ := work
  exact .of_config rfl rfl

theorem WorkOnly.config {h g : Hub} (work : WorkOnly h g) : g.config = h.config := by
  obtain ⟨t, f, u, ms, ls, rfl⟩ := work
  rfl

theorem WorkOnly.windows {h g : Hub} (work : WorkOnly h g) : g.windows = h.windows := by
  obtain ⟨t, f, u, ms, ls, rfl⟩ := work
  rfl

theorem want_memory_config (h : Hub) (p : Port) : (h.wantMemory p).config = h.config ∧ (h.wantMemory p).windows = h.windows := by
  obtain ⟨c, r, u, same, _⟩ := want_memory_frame h p
  rw [same]
  exact ⟨rfl, rfl⟩

/-- With nothing in flight a commit's aborts leave no entry. -/
theorem commit_aborts_empties {h : Hub} (free : h.scheduler.burst = none) (geometry : Bool) :
    (h.commitAborts true geometry).table = [] := by
  refine List.eq_nil_iff_forall_not_mem.mpr fun e left => ?_
  obtain ⟨z, inTable, stays, _⟩ := (commit_aborts_eased h h true geometry).before left
  rw [abortsFree, if_pos rfl, freed_of_idle free] at stays
  exact stays (List.mem_map_of_mem inTable)

theorem Act.plan_move {c : Instr} {h g : Hub} (act : Act c h g) : PlanMove h g := by
  cases act with
  | admits data passes => exact .of_config (want_memory_config _ _).1 (want_memory_config _ _).2
  | take fresh free unblocked => exact (work_place_take _ _ _).plan
  | leave slot held granted => exact (work_leave _ _).plan
  | want => exact .of_config (want_memory_config _ _).1 (want_memory_config _ _).2
  | wake fresh => exact .of_config (want_memory_config _ _).1 (want_memory_config _ _).2
  | stage command unchanged => exact .stage rfl rfl unchanged
  | @commit p tag force fresh outside unchanged passes =>
    have config := (work_commit_aborts h force (geometryDiffers h.config.staged h.config.committed)).config
    have windows := (work_commit_aborts h force (geometryDiffers h.config.staged h.config.committed)).windows
    exact .commit force (congrArg ConfigUnit.committed config :) (congrArg ConfigUnit.staged config :) windows passes
  | disable command unchanged => exact .disable _ _ rfl unchanged rfl
  | enable command unchanged inside apart => exact .enable _ _ _ rfl unchanged rfl inside apart
  | hubReset fresh outside unchanged =>
    have config := (work_discard h).config
    refine .same (congrArg ConfigUnit.committed config :) (congrArg ConfigUnit.staged config :) (work_discard h).windows ?_
    rintro ⟨c, f, d, pending, kind⟩
    cases Option.some.inj pending
    cases kind
  | placeReply head owner => exact .of_config (work_placed _ _ _).config (work_placed _ _ _).windows
  | @teardown p command =>
    obtain ⟨u, ms, torn, _⟩ := teardown_units h p
    rw [torn]
    refine .same rfl rfl rfl ?_
    rintro ⟨c, f, d, pending, kind⟩
    obtain ⟨c', pending', rfl⟩ := Option.map_eq_some_iff.mp pending
    refine ⟨c', f, d, pending', ?_⟩
    split at kind <;> exact kind
  | completeRead command flying kind served =>
    exact .of_config (work_complete_burst _ _ _).config (work_complete_burst _ _ _).windows
  | completeWrite command flying kind served =>
    exact .of_config (work_complete_burst _ _ _).config (work_complete_burst _ _ _).windows
  | leavingEnds flying outside leaving unchanged =>
    rw [become_serving_eq]
    exact .of_config rfl rfl
  | bringupEnds flying inside =>
    rw [end_bringup_eq]
    split <;> exact .same rfl rfl rfl id
  | waitEnds found => exact .of_config (work_scan _).config (work_scan _).windows
  | grantingEnds found => exact .of_config (work_leave _ _).config (work_leave _ _).windows
  | @copy force geometry p tag torn command pending idle out =>
    have config := (work_commit_aborts h true geometry).config
    exact .copy ⟨_, force, geometry, pending, rfl⟩ (congrArg ConfigUnit.staged config :) rfl
      (work_commit_aborts h true geometry).windows (commit_aborts_empties ((idle_iff _).mp idle).1 geometry)
  | reset command pending idle out layers => exact .reset rfl rfl rfl rfl
  | allClosed flying => exact .same rfl rfl rfl id
  | modeLoaded flying => exact .same rfl rfl rfl id
  | bringupUpkeep flying inside => exact .same rfl rfl rfl id
  | settleEnds record phase => exact .same rfl rfl rfl id
  | role command => exact .same rfl rfl rfl id
  | _ => exact .of_config rfl rfl

/-! ### The end of an event and the table -/

/-- The end of an event eases the entries, and clears CHANNEL holds only where it ends ENTERING. -/
theorem settle_eased (h : Hub) : ∃ clears, Eased h h clears [] h.table h.settle.table ∧
    (clears = true → EnteringEnds h) := by
  obtain ⟨⟨_, table, _⟩, _⟩ := settle_parts h
  rw [table]
  rcases evaluate_cases h with ⟨_, _, same⟩ | ⟨_, _, same⟩ | ⟨ends, same⟩
  · rw [same]
    exact ⟨false, eased_refl .., fun no => by cases no⟩
  · rw [same]
    exact ⟨false, eased_refl .., fun no => by cases no⟩
  · rw [same]
    exact ⟨true, served_eased h h, fun _ => ends⟩

theorem Lasting.settle {β : Type} {F : Entry → β} (lasting : Lasting F) (h : Hub) :
    h.settle.table.map F = h.table.map F := by
  obtain ⟨clears, eased, _⟩ := settle_eased h
  rw [lasting.eased eased, List.filter_eq_self.mpr (by simp)]

theorem Quiet.table {h g : Hub} (quiet : Quiet h g) : g.table = h.table := by rw [quiet.frame]; rfl

theorem Quiet.config {h g : Hub} (quiet : Quiet h g) : g.config = h.config := by rw [quiet.frame]; rfl

theorem Quiet.windows {h g : Hub} (quiet : Quiet h g) : g.windows = h.windows := by rw [quiet.frame]; rfl

/-! ### Quotas (R3, R4, R123) -/

theorem occupied_eq (h : Hub) (p : Port) : h.occupied p = (h.table.map Entry.port).count p := by
  rw [Hub.occupied, List.count, List.countP_map, List.countP_eq_length_filter]
  rfl

theorem quota_law_congr {h g : Hub} (index : g.table.map Entry.index = h.table.map Entry.index)
    (port : g.table.map Entry.port = h.table.map Entry.port) (committed : g.config.committed = h.config.committed)
    (staged : g.config.staged = h.config.staged) (change : g.config.change = h.config.change) (law : QuotaLaw h) :
    QuotaLaw g := by
  obtain ⟨indices, occupied, sum, pending⟩ := law
  refine ⟨by rwa [IndexLaw, index], fun p => ?_, by rwa [committed], by rwa [change, staged]⟩
  rw [occupied_eq, port, ← occupied_eq, committed]
  exact occupied p

/-- A move leaves no port more entries than its quota. -/
theorem occupied_after {h g : Hub} (index : IndexLaw h) (move : TableMove h g)
    (quota : ∀ p, h.occupied p ≤ h.config.committed.quota.get p) (p : Port) :
    g.occupied p ≤ h.config.committed.quota.get p := by
  rw [occupied_eq]
  rcases move.lasting (F := Entry.port) (fun _ _ _ _ _ _ _ _ _ => rfl) index with
    sub | ⟨q, kind, tag, words, reserved, addr, a, i, data, passes, same⟩
  · exact (sub.count_le p).trans (occupied_eq h p ▸ quota p)
  · obtain ⟨_, _, _, room, _⟩ := admission_fresh passes
    rw [same, List.map_append, List.map_singleton, List.count_append, admitted_port, ← occupied_eq]
    by_cases own : q = p
    · subst own
      rw [List.count_singleton_self]
      exact room
    · rw [List.count_singleton, if_neg (by simpa using own)]
      exact quota p

theorem occupied_empty {g : Hub} (empty : g.table = []) (p : Port) : g.occupied p = 0 := by
  rw [occupied_eq, empty]
  rfl

theorem quota_sum_of_cross_check {h : Hub} {force : Bool} (passes : h.crossCheck force = none) :
    h.config.staged.quotaSum ≤ 32 ∧ h.windowList.findIdx? (beyond h.config.staged.memorySize) = none := by
  unfold Hub.crossCheck at passes
  dsimp only at passes
  split at passes
  · cases passes
  · split at passes
    · cases passes
    · split at passes
      · cases passes
      · split at passes
        · cases passes
        · next within => exact ⟨by omega, within⟩

theorem quota_law_moves {c : Instr} {h g : Hub} (law : QuotaLaw h) (act : Act c h g) : QuotaLaw g := by
  obtain ⟨index, quota, sum, pending⟩ := law
  have occupied := occupied_after index act.table_move quota
  have indices := act.table_move.index_law index
  have unpending (unchanged : g.config.change = none) : ∀ c f d, g.config.change = some c → c.kind = .commit f d →
      g.config.staged.quotaSum ≤ 32 := fun c f d some_change => by rw [unchanged] at some_change; cases some_change
  cases act.plan_move with
  | same committed staged windows pends =>
    refine ⟨indices, committed ▸ occupied, committed ▸ sum, fun c f d change kind => ?_⟩
    obtain ⟨c', f', d', change', kind'⟩ := pends ⟨c, f, d, change, kind⟩
    exact staged ▸ pending c' f' d' change' kind'
  | stage committed windows unchanged => exact ⟨indices, committed ▸ occupied, committed ▸ sum, unpending unchanged⟩
  | disable n k config unchanged windows => exact ⟨indices, config ▸ occupied, config ▸ sum, unpending unchanged⟩
  | enable n k w config unchanged windows => exact ⟨indices, config ▸ occupied, config ▸ sum, unpending unchanged⟩
  | commit force committed staged windows passes =>
    exact ⟨indices, committed ▸ occupied, committed ▸ sum, fun _ _ _ _ _ => staged ▸ (quota_sum_of_cross_check passes).1⟩
  | copy pends committed unchanged windows empty =>
    obtain ⟨c', f', d', change', kind'⟩ := pends
    exact ⟨indices, fun p => by rw [occupied_empty empty]; exact Nat.zero_le _, committed ▸ pending c' f' d' change' kind',
      unpending unchanged⟩
  | reset committed unchanged windows empty =>
    exact ⟨indices, fun p => by rw [occupied_empty empty]; exact Nat.zero_le _,
      committed ▸ (by decide : Params.default.quotaSum ≤ 32), unpending unchanged⟩

theorem quota_law_quiet {h g : Hub} (quiet : Quiet h g) (law : QuotaLaw h) : QuotaLaw g :=
  quota_law_congr (by rw [quiet.table]) (by rw [quiet.table]) (by rw [quiet.config]) (by rw [quiet.config])
    (by rw [quiet.config]) law

theorem quota_law_kept : KeptByEveryStep QuotaLaw :=
  kept_by_moves quota_law_quiet quota_law_moves quota_law_quiet
    (quota_law_congr (Lasting.settle (fun _ _ _ _ _ _ _ _ _ => rfl) _) (Lasting.settle (fun _ _ _ _ _ _ _ _ _ => rfl) _)
      (settle_committed _) (settle_staged _) (settle_change _))
    power_up_quota_law fun n => power_up_quota_law n

/-! ### Windows (R136, R140, R142) -/

theorem windows_inside_congr {h g : Hub} (committed : g.config.committed = h.config.committed)
    (staged : g.config.staged = h.config.staged) (change : g.config.change = h.config.change)
    (windows : g.windows = h.windows) (law : WindowsInside h) : WindowsInside g := by
  unfold WindowsInside Enabled at *
  rw [committed, staged, change, windows]
  exact law

/-- A window record is put in its place, and the others stay. -/
theorem enabled_put {h g : Hub} {n k : Port} {w : Option Window}
    (windows : g.windows = h.windows.upd n (fun ws => ws.set k w)) {p v : Port} {r : Window} (on : Enabled g p v r) :
    (p = n ∧ v = k ∧ w = some r) ∨ (¬ (p = n ∧ v = k) ∧ Enabled h p v r) := by
  unfold Enabled at on ⊢
  rw [windows, quad_get_upd] at on
  by_cases port : p = n
  · subst port
    rw [if_pos rfl, quad_get_set] at on
    by_cases own : v = k
    · rw [if_pos own] at on
      exact .inl ⟨rfl, own, on⟩
    · rw [if_neg own] at on
      exact .inr ⟨fun both => own both.2, on⟩
  · rw [if_neg port] at on
    exact .inr ⟨fun both => port both.1, on⟩

theorem quad_mem_list {α : Type} (q : Quad α) (p : Port) : q.get p ∈ q.toList := by
  fin_cases p <;> simp [Quad.toList, Quad.get]

theorem enabled_listed {h : Hub} {p w : Port} {r : Window} (on : Enabled h p w r) : some r ∈ h.windowList := by
  rw [Hub.windowList, List.mem_flatMap]
  exact ⟨_, quad_mem_list h.windows p, on ▸ quad_mem_list (h.windows.get p) w⟩

theorem windows_inside_moves {c : Instr} {h g : Hub} (law : WindowsInside h) (act : Act c h g) : WindowsInside g := by
  obtain ⟨inside, pending⟩ := law
  have unpending (unchanged : g.config.change = none) : ∀ c f d, g.config.change = some c → c.kind = .commit f d →
      ∀ p w r, Enabled g p w r → r.target + r.size ≤ g.config.staged.memorySize :=
    fun c f d some_change => by rw [unchanged] at some_change; cases some_change
  have standing {p w : Port} {r : Window} (windows : g.windows = h.windows) (on : Enabled g p w r) : Enabled h p w r := by
    unfold Enabled at *
    rwa [windows] at on
  cases act.plan_move with
  | same committed staged windows pends =>
    refine ⟨fun p w r on => committed ▸ inside p w r (standing windows on), fun c f d change kind p w r on => ?_⟩
    obtain ⟨c', f', d', change', kind'⟩ := pends ⟨c, f, d, change, kind⟩
    exact staged ▸ pending c' f' d' change' kind' p w r (standing windows on)
  | stage committed windows unchanged =>
    exact ⟨fun p w r on => committed ▸ inside p w r (standing windows on), unpending unchanged⟩
  | disable n k config unchanged windows =>
    refine ⟨fun p w r on => ?_, unpending unchanged⟩
    rcases enabled_put windows on with ⟨_, _, no⟩ | ⟨_, on⟩
    · cases no
    · exact config ▸ inside p w r on
  | enable n k w' config unchanged windows within =>
    refine ⟨fun p w r on => ?_, unpending unchanged⟩
    rcases enabled_put windows on with ⟨_, _, own⟩ | ⟨_, on⟩
    · cases own
      exact config ▸ within
    · exact config ▸ inside p w r on
  | commit force committed staged windows passes =>
    refine ⟨fun p w r on => committed ▸ inside p w r (standing windows on), fun _ _ _ _ _ p w r on => ?_⟩
    have fits := List.findIdx?_eq_none_iff.mp (quota_sum_of_cross_check passes).2 _ (enabled_listed (standing windows on))
    rw [staged]
    simpa [beyond] using fits
  | copy pends committed unchanged windows empty =>
    obtain ⟨c', f', d', change', kind'⟩ := pends
    exact ⟨fun p w r on => committed ▸ pending c' f' d' change' kind' p w r (standing windows on), unpending unchanged⟩
  | reset committed unchanged windows empty =>
    refine ⟨fun p w r on => ?_, unpending unchanged⟩
    have on' : Enabled (Hub.powerUp 0) p w r := by
      unfold Enabled at *
      rwa [windows] at on
    exact committed ▸ (power_up_windows_inside 0).1 p w r on'

theorem windows_inside_quiet {h g : Hub} (quiet : Quiet h g) (law : WindowsInside h) : WindowsInside g :=
  windows_inside_congr (by rw [quiet.config]) (by rw [quiet.config]) (by rw [quiet.config]) quiet.windows law

theorem windows_inside_kept : KeptByEveryStep WindowsInside :=
  kept_by_moves windows_inside_quiet windows_inside_moves windows_inside_quiet
    (windows_inside_congr (settle_committed _) (settle_staged _) (settle_change _) (settle_windows _))
    power_up_windows_inside fun n => power_up_windows_inside n

theorem windows_apart_congr {h g : Hub} (windows : g.windows = h.windows) (law : WindowsApart h) : WindowsApart g := by
  unfold WindowsApart Enabled at *
  rw [windows]
  exact law

theorem ranges_overlap_comm (a m b n : Nat) : rangesOverlap a m b n = rangesOverlap b n a m := by
  unfold rangesOverlap
  rw [Bool.and_comm]

theorem windows_apart_moves {c : Instr} {h g : Hub} (law : WindowsApart h) (act : Act c h g) : WindowsApart g := by
  cases act.plan_move with
  | same committed staged windows pends => exact windows_apart_congr windows law
  | stage committed windows unchanged => exact windows_apart_congr windows law
  | disable n k config unchanged windows =>
    intro p v w r q apart onV onW
    rcases enabled_put windows onV with ⟨_, _, no⟩ | ⟨_, onV⟩
    · cases no
    rcases enabled_put windows onW with ⟨_, _, no⟩ | ⟨_, onW⟩
    · cases no
    exact law p v w r q apart onV onW
  | enable n k w' config unchanged windows within clear =>
    have free {v : Port} {q : Window} (other : v ≠ k) (on : Enabled h n v q) :
        rangesOverlap w'.base w'.size q.base q.size = false := by
      have listed := quad_mem_list ((h.windows.get n).set k none) v
      rw [quad_get_set_other _ _ other, on] at listed
      simpa [overlapsWindow] using List.findIdx?_eq_none_iff.mp clear _ listed
    intro p v w r q apart onV onW
    rcases enabled_put windows onV with ⟨port, own, same⟩ | ⟨elseV, onV⟩
    · cases same
      subst port own
      rcases enabled_put windows onW with ⟨_, own, _⟩ | ⟨_, onW⟩
      · exact absurd own.symm apart
      · exact free (Ne.symm apart) onW
    · rcases enabled_put windows onW with ⟨port, own, same⟩ | ⟨_, onW⟩
      · cases same
        subst port own
        rw [ranges_overlap_comm]
        exact free apart onV
      · exact law p v w r q apart onV onW
  | commit force committed staged windows passes => exact windows_apart_congr windows law
  | copy pends committed unchanged windows empty => exact windows_apart_congr windows law
  | reset committed unchanged windows empty => exact windows_apart_congr windows (power_up_windows_apart 0)

theorem windows_apart_kept : KeptByEveryStep WindowsApart :=
  kept_by_moves (fun quiet => windows_apart_congr quiet.windows) windows_apart_moves
    (fun quiet => windows_apart_congr quiet.windows) (windows_apart_congr (settle_windows _)) power_up_windows_apart
    fun n => power_up_windows_apart n

/-! ### One ACTIVE entry (R46) -/

theorem Eases.active_unmarked {h k : Hub} {clears : Bool} {e e' : Entry} (eases : Eases h k clears e e')
    (active : e'.activeUnmarked = true) : e.activeUnmarked = true := by
  simp only [Entry.activeUnmarked, Bool.and_eq_true, beq_iff_eq, Option.isNone_iff_eq_none] at active ⊢
  obtain ⟨phase, unmarked⟩ := active
  refine ⟨eases.active.mp phase, ?_⟩
  rcases eases.mark with same | ⟨_, marked⟩
  · exact same ▸ unmarked
  · exact absurd unmarked marked

theorem count_of_forall {α : Type} {R : α → α → Prop} {c : α → Bool} (back : ∀ {a b}, R a b → c b = true → c a = true)
    {xs ys : List α} (related : List.Forall₂ R xs ys) : (ys.filter c).length ≤ (xs.filter c).length := by
  induction related with
  | nil => exact Nat.le_refl _
  | @cons a b _ _ pair _ ih =>
    cases meets : c b
    · rw [List.filter_cons_of_neg (by simp [meets])]
      exact ih.trans (List.Sublist.length_le (List.Sublist.filter c (List.sublist_cons_self a _)))
    · rw [List.filter_cons_of_pos meets, List.filter_cons_of_pos (back pair meets)]
      exact Nat.succ_le_succ ih

/-- An easing leaves no more entries ACTIVE without the mark. -/
theorem Eased.active_count {h k : Hub} {clears : Bool} {gone : List Index} {t t' : List Entry}
    (eased : Eased h k clears gone t t') :
    (t'.filter Entry.activeUnmarked).length ≤ (t.filter Entry.activeUnmarked).length :=
  (count_of_forall (fun eases => eases.active_unmarked) eased).trans
    (List.Sublist.length_le (List.Sublist.filter _ List.filter_sublist))

/-- An entry replaced by one that is ACTIVE without the mark at most where it is. -/
theorem put_active_count {t : List Entry} {e f : Entry} (apart : (t.map Entry.index).Nodup) (member : e ∈ t)
    (back : f.activeUnmarked = true → e.activeUnmarked = true) :
    ((putAt t e.index f).filter Entry.activeUnmarked).length ≤ (t.filter Entry.activeUnmarked).length := by
  have related : List.Forall₂ (fun z z' : Entry => z'.activeUnmarked = true → z.activeUnmarked = true) t
      (putAt t e.index f) := by
    rw [putAt, List.forall₂_map_right_iff]
    refine List.forall₂_same.mpr fun z inside active => ?_
    split at active
    · next own => exact List.inj_on_of_nodup_map apart inside member own ▸ back active
    · exact active
  exact count_of_forall (fun pair meets => pair meets) related

/-- What a grant of the data lane says of the hub and the entry (R46, R52). -/
structure GrantedTo (h : Hub) (e : Entry) : Prop where
  member : e ∈ h.table
  free : h.scheduler.burst = none
  rested : h.scheduler.inFlight .upkeep = false
  serving : h.channel = .serving
  servable : e.servable = true
  openAt : OpenAt h e
  alone : e.activeUnmarked = true ∨ ∀ x ∈ h.table, x.activeUnmarked = false

theorem grantable_open {h : Hub} {e : Entry} (grants : h.grantable e = true) : OpenAt h e := by
  unfold Hub.grantable at grants
  split at grants
  · cases grants
  · next k known =>
    simp only [Bool.and_eq_true, beq_iff_eq, Bank.hit] at grants
    exact ⟨k, known, grants.1.1.2, grants.1.1.1.2.2⟩

theorem granted_to {h : Hub} {e : Entry} (granted : h.grant = some e) : GrantedTo h e := by
  by_cases withheld : h.scheduler.burst ≠ none ∨ h.scheduler.inFlight .upkeep = true ∨ h.channel ≠ .serving
  · rw [grant_withheld withheld] at granted
    cases granted
  obtain ⟨free, rested, serving⟩ : h.scheduler.burst = none ∧ h.scheduler.inFlight .upkeep = false ∧ h.channel = .serving := by
    simpa [not_or] using withheld
  rw [grant_eq free rested serving] at granted
  cases found : h.table.find? Entry.activeUnmarked with
  | some x =>
    rw [found] at granted
    dsimp only at granted
    split at granted
    · next continues =>
      cases granted
      have active := List.find?_some found
      exact ⟨List.mem_of_find?_eq_some found, free, rested, serving, by simp [Entry.servable, active],
        ((continuable_iff h e).mp continues).2, .inl active⟩
    · cases granted
  | none =>
    rw [found] at granted
    have meets := List.find?_some granted
    rw [Bool.and_eq_true] at meets
    refine ⟨List.mem_of_find?_eq_some granted, free, rested, serving, meets.1, grantable_open meets.2, .inr fun x inside => ?_⟩
    simpa using List.find?_eq_none.mp found x inside

theorem one_of_one_index {t : List Entry} {i : Index} (apart : (t.map Entry.index).Nodup) (same : ∀ e ∈ t, e.index = i) :
    t.length ≤ 1 := by
  match t, apart, same with
  | [], _, _ => exact Nat.zero_le 1
  | [_], _, _ => exact Nat.le_refl 1
  | a :: b :: rest, apart, same =>
    have fresh := (List.nodup_cons.mp apart).1
    rw [same a List.mem_cons_self] at fresh
    exact absurd (List.mem_cons.mpr (.inl (same b (by simp)).symm)) fresh

/-- Without an aborting mark, what the start of a burst makes ACTIVE is the entry it serves. -/
theorem started_active {i : Index} {t t' : List Entry} (starts : List.Forall₂ (Starts i) t t')
    (none_active : ∀ x ∈ t, x.activeUnmarked = false) : ∀ e ∈ t', e.activeUnmarked = true → e.index = i := by
  induction starts with
  | nil => exact fun e inside => by cases inside
  | @cons a b _ _ pair _ ih =>
    intro e inside active
    rcases List.mem_cons.mp inside with rfl | later
    · have index : e.index = a.index := by rw [pair.frame]
      by_contra other
      have phase : e.phase = a.phase := pair.phase.trans (if_neg (index ▸ other))
      have mark : e.aborting = a.aborting := by rw [pair.frame]
      have idle := none_active a List.mem_cons_self
      rw [Entry.activeUnmarked, phase, mark] at active
      rw [Entry.activeUnmarked, active] at idle
      cases idle
    · exact ih (fun x inside => none_active x (List.mem_cons_of_mem _ inside)) e later active

theorem admitted_cases (h : Hub) (p : Port) (kind : Access) (tag : Byte) (words a : Nat) (i : Index) (data : List Word) :
    (admitted h p kind tag words a i data).phase = .held ∨ (admitted h p kind tag words a i data).phase = .queued := by
  rcases promote_cases { h.newEntry p kind tag words a i data with holds := h.newHolds (h.newEntry p kind tag words a i data) }
    with ⟨_, _, promoted⟩ | ⟨_, same⟩
  · exact .inr (congrArg Entry.phase promoted)
  · exact .inl (congrArg Entry.phase same)

theorem one_active_moves {c : Instr} {h g : Hub} (law : OneActiveLaw h) (act : Act c h g) : OneActiveLaw g := by
  obtain ⟨index, one⟩ := law
  have indices := act.table_move.index_law index
  refine ⟨indices, ?_⟩
  cases act.table_move with
  | eased eased _ => exact eased.active_count.trans one
  | @admits p kind tag words reserved addr a i data passes same =>
    have idle : (admitted h p kind tag words a i data).activeUnmarked = false := by
      rw [Entry.activeUnmarked]
      rcases admitted_cases h p kind tag words a i data with phase | phase <;> rw [phase] <;> rfl
    rw [same, List.filter_append, List.filter_cons_of_neg (by rw [idle]; exact Bool.false_ne_true), List.filter_nil,
      List.append_nil]
    exact one
  | @starts e granted same =>
    have starts := start_burst_table h e
    rw [← same] at starts
    have grants := granted_to granted
    rcases grants.alone with active | none_active
    · refine (count_of_forall (R := fun z z' => z ∈ h.table ∧ Starts e.index z z') (fun {z z'} pair meets => ?_)
        (List.forall₂_iff_zip.mpr ⟨starts.length_eq, fun {z z'} inside =>
          ⟨(List.of_mem_zip inside).1, List.forall₂_zip starts inside⟩⟩)).trans one
      obtain ⟨inside, starts⟩ := pair
      by_cases own : z.index = e.index
      · exact List.inj_on_of_nodup_map index inside grants.member own ▸ active
      · have phase : z'.phase = z.phase := starts.phase.trans (if_neg own)
        have mark : z'.aborting = z.aborting := by rw [starts.frame]
        rw [Entry.activeUnmarked, phase, mark] at meets
        exact meets
    · refine one_of_one_index (i := e.index) (indices.sublist (List.filter_sublist.map _)) fun x inside => ?_
      obtain ⟨member, active⟩ := List.mem_filter.mp inside
      exact started_active starts none_active x member active
  | completes completes =>
    obtain ⟨x, e, f, d, c, b, burst, found, progress, _, rfl⟩ := completes
    obtain ⟨member, _⟩ := (entry_eq_some_iff index).mp found
    obtain ⟨X, phase, gone, put, _, eased, phases⟩ := outcome_eased
      { h with dram := d, check := c, scheduler := { h.scheduler with banks := b } } e.index f
    refine eased.active_count.trans ((put ▸ put_active_count index member fun active => ?_).trans one)
    simp only [Entry.activeUnmarked, Bool.and_eq_true, beq_iff_eq, Option.isNone_iff_eq_none] at active ⊢
    have same : f.phase = e.phase ∧ f.aborting = e.aborting := by
      rw [progress]
      exact ⟨rfl, rfl⟩
    refine ⟨?_, same.2 ▸ active.2⟩
    rcases phases with ⟨_, own, _⟩ | ⟨_, _, done | own | ⟨queued, _⟩, _⟩
    · exact same.1 ▸ own ▸ active.1
    · rw [done] at active
      cases active.1
    · exact same.1 ▸ own ▸ active.1
    · rw [queued] at active
      cases active.1

theorem one_active_kept : KeptByEveryStep OneActiveLaw := by
  have congr {h g : Hub} (same : g.table = h.table) (law : OneActiveLaw h) : OneActiveLaw g := by
    unfold OneActiveLaw IndexLaw at *
    rwa [same]
  refine kept_by_moves (fun quiet => congr quiet.table) one_active_moves (fun quiet => congr quiet.table)
    (fun {h} law => ?_) (fun n => ⟨List.nodup_nil, Nat.zero_le 1⟩) fun n => ⟨List.nodup_nil, Nat.zero_le 1⟩
  obtain ⟨clears, eased, _⟩ := settle_eased h
  exact ⟨by rw [IndexLaw, settle_index]; exact law.1, eased.active_count.trans law.2⟩

/-- Settles O55, law by law: each move, and the end of an event. -/
theorem stepsKeepQuotasOneActiveAndWindows : Obligations.StepsKeepQuotasOneActiveAndWindows :=
  ⟨quota_law_kept, one_active_kept, windows_inside_kept, windows_apart_kept⟩

end Sys2Proof.Safety
end

section
/-! SUPPORT. The moves by what they do to the lanes and the banks, and by what they do to the channel; a proof of the statement
on UPKEEPs and rest. -/

namespace Sys2Proof.Safety

open Sys2Proof.Machine

/-! ### The lanes and the banks -/

/-- The states and the rows of the banks. -/
def rowsOf (u : Scheduler) : List (BankState × Option Nat) := u.banks.map (fun k => (k.state, k.row))

/-- The banks, the burst and the command in flight are the same but for marks and flags. -/
structure SameLanes (u v : Scheduler) : Prop where
  rows : rowsOf v = rowsOf u
  burst : v.burst = u.burst
  flight : v.flight = u.flight

theorem SameLanes.refl (u : Scheduler) : SameLanes u u := ⟨rfl, rfl, rfl⟩

theorem SameLanes.trans {u v w : Scheduler} (a : SameLanes u v) (b : SameLanes v w) : SameLanes u w :=
  ⟨b.rows.trans a.rows, b.burst.trans a.burst, b.flight.trans a.flight⟩

theorem SameLanes.after {u v w : Scheduler} (b : SameLanes v w) (a : SameLanes u v) : SameLanes u w := a.trans b

theorem all_closed_rows (u : Scheduler) : u.allClosed = (rowsOf u).all (fun k => k.1 == .closed) := by
  rw [Scheduler.allClosed, rowsOf, List.all_map]
  rfl

theorem all_closed_congr {u v : Scheduler} (rows : rowsOf v = rowsOf u) : v.allClosed = u.allClosed := by
  rw [all_closed_rows, all_closed_rows, rows]

theorem in_flight_congr {u v : Scheduler} (flight : v.flight = u.flight) (c : ChannelCommand) : v.inFlight c = u.inFlight c := by
  rw [Scheduler.inFlight, Scheduler.inFlight, flight]

theorem in_flight_none {u : Scheduler} (flight : u.flight = none) (c : ChannelCommand) : u.inFlight c = false := by
  rw [Scheduler.inFlight, flight]

theorem in_flight_some {u : Scheduler} {d : ChannelCommand} {t : Nat} (flight : u.flight = some ⟨d, t⟩) (c : ChannelCommand) :
    u.inFlight c = (d == c) := by
  rw [Scheduler.inFlight, flight]

/-- What a move does to the lanes and the banks. -/
inductive LaneMove (h g : Hub) : Prop
  | same (lanes : SameLanes h.scheduler g.scheduler)
  | rowOpen {b : Nat} {e : Entry} (serves : h.laneServes = some (b, .openFor e)) (f : Bank → Bank)
      (same : g.scheduler = { h.scheduler with banks := h.scheduler.banks.modify b f })
  | rowClose {b : Nat} (serves : h.laneServes = some (b, .close)) (f : Bank → Bank)
      (same : g.scheduler = { h.scheduler with banks := h.scheduler.banks.modify b f })
  | bankOpens {b : Nat} {k : Bank} (known : h.scheduler.banks[b]? = some k) (opening : k.state = .opening) (f : Bank → Bank)
      (same : g.scheduler = { h.scheduler with banks := h.scheduler.banks.modify b f })
  | bankCloses {b : Nat} {k : Bank} (known : h.scheduler.banks[b]? = some k) (closing : k.state = .closing) (f : Bank → Bank)
      (closes : ∀ k, (f k).state = .closed)
      (same : g.scheduler = { h.scheduler with banks := h.scheduler.banks.modify b f })
  | burst {e : Entry} (granted : h.grant = some e) (flies : g.scheduler.burst = some (h.nextBurst e))
      (flight : g.scheduler.flight = h.scheduler.flight) (rows : rowsOf g.scheduler = rowsOf h.scheduler)
  | burstEnds (free : g.scheduler.burst = none) (flight : g.scheduler.flight = h.scheduler.flight)
      (rows : rowsOf g.scheduler = rowsOf h.scheduler)
  | launch {d : ChannelCommand} (t : Nat) (ready : commandReady h d = true)
      (same : g.scheduler = { h.scheduler with flight := some ⟨d, t⟩ })
  | landed {d : ChannelCommand} {t : Nat} (flying : h.scheduler.flight = some ⟨d, t⟩)
      (same : g.scheduler = { h.scheduler with flight := none })
  | allClosed {t : Nat} (flying : h.scheduler.flight = some ⟨.allClose, t⟩) (n : Nat)
      (same : g.scheduler = { h.scheduler with flight := none, banks := List.replicate n Bank.closedRecord })
  | reset (same : g.scheduler = Scheduler.powerUp)

theorem LaneMove.of_eq {h g : Hub} (same : g.scheduler = h.scheduler) : LaneMove h g := .same (same ▸ .refl _)

theorem WorkOnly.lanes {h g : Hub} (work : WorkOnly h g) : SameLanes h.scheduler g.scheduler := by
  obtain ⟨t, f, u, ms, ls, rfl⟩ := work
  exact ⟨List.map_map .., rfl, rfl⟩

theorem want_memory_scheduler (h : Hub) (p : Port) : (h.wantMemory p).scheduler = h.scheduler := by
  obtain ⟨c, r, u, same, _⟩ := want_memory_frame h p
  rw [same]

theorem work_rechecked (h : Hub) (p : Port) : WorkOnly h (portRechecked h p) := by
  rw [portRechecked]
  exact .trans (.of_frame rfl) (.trans (work_remove _ _) (.of_frame rfl))

theorem teardown_lanes (h : Hub) (p : Port) : SameLanes h.scheduler (h.teardown p).scheduler := by
  obtain ⟨u, ms, torn, _⟩ := teardown_units h p
  rw [torn]
  exact (work_rechecked h p).lanes

theorem modify_mark_rows (u : Scheduler) (b : Nat) {f : Bank → Bank} (same : ∀ k, (f k).state = k.state ∧ (f k).row = k.row) :
    rowsOf { u with banks := u.banks.modify b f } = rowsOf u :=
  map_modify_same (fun k => by rw [(same k).1, (same k).2]) u.banks b

theorem Act.lane_move {c : Instr} {h g : Hub} (act : Act c h g) : LaneMove h g := by
  cases act with
  | admits data passes => exact .of_eq (want_memory_scheduler _ _)
  | take fresh free unblocked => exact .same (work_place_take _ _ _).lanes
  | leave slot held granted => exact .same (work_leave _ _).lanes
  | want => exact .of_eq (want_memory_scheduler _ _)
  | wake fresh => exact .of_eq (want_memory_scheduler _ _)
  | commit fresh outside unchanged passes => exact .same (work_commit_aborts _ _ _).lanes
  | hubReset fresh outside unchanged => exact .same (work_discard h).lanes
  | placeReply head owner => exact .same (.after (work_placed _ _ _).lanes ⟨rfl, rfl, rfl⟩)
  | teardown command => exact .same (teardown_lanes h _)
  | rowOpen o d serves => exact .rowOpen serves _ rfl
  | rowClose d serves => exact .rowClose serves _ rfl
  | bankOpens flagged known opening => exact .bankOpens known opening _ rfl
  | bankCloses known closing => exact .bankCloses known closing _ (fun _ => rfl) rfl
  | writeMark => exact .same ⟨modify_mark_rows _ _ fun _ => ⟨rfl, rfl⟩, rfl, rfl⟩
  | startBurst granted => exact .burst granted rfl rfl rfl
  | completeRead command flying kind served =>
    obtain ⟨rows, free, flight⟩ := (work_complete_burst _ _ _).lanes
    exact .burstEnds free flight rows
  | completeWrite command flying kind served =>
    obtain ⟨rows, free, flight⟩ := (work_complete_burst (writeDone h _) _ _).lanes
    exact .burstEnds free flight (rows.trans (modify_mark_rows h.scheduler _ fun _ => ⟨rfl, rfl⟩))
  | launch done ready => exact .launch done ready rfl
  | allClosed flying => exact .allClosed flying _ rfl
  | modeLoaded flying => exact .landed flying rfl
  | paid flying outside => exact .landed flying rfl
  | leavingEnds flying outside leaving unchanged =>
    rw [become_serving_eq]
    exact .landed flying rfl
  | bringupUpkeep flying inside => exact .landed flying rfl
  | bringupEnds flying inside =>
    rw [end_bringup_eq]
    split <;> exact .landed flying rfl
  | retained flying => exact .landed flying rfl
  | waitEnds found => exact .same (.after (work_scan _).lanes ⟨rfl, rfl, rfl⟩)
  | grantingEnds found => exact .same ((work_leave _ _).lanes.trans ⟨rfl, rfl, rfl⟩)
  | copy command pending idle out => exact .same ((work_commit_aborts _ _ _).lanes.trans ⟨rfl, rfl, rfl⟩)
  | reset command pending idle out layers => exact .reset rfl
  | _ => exact .of_eq rfl

/-! ### UPKEEPs (R35, R46) -/

theorem lane_unready {h : Hub} (flying : h.scheduler.flight ≠ none) : h.laneServes = none := by
  unfold Hub.laneServes
  split
  · rfl
  · rw [List.findSome?_eq_none_iff]
    exact fun b _ => by rw [bank_ready_flying flying]; rfl

/-- While a channel-wide command is in flight the lane serves no bank. -/
theorem lane_free {h : Hub} {x : Nat × BankCommand} (serves : h.laneServes = some x) : h.scheduler.flight = none := by
  by_contra flying
  rw [lane_unready flying] at serves
  cases serves

/-- What the lane serves is ready. -/
theorem lane_ready {h : Hub} {b : Nat} {x : BankCommand} (serves : h.laneServes = some (b, x)) : h.bankReady b = some x := by
  unfold Hub.laneServes at serves
  split at serves
  · cases serves
  · exact (first_ready_in_rotation serves).1

/-- A bank that the lane opens is CLOSED, over a SERVING channel (R32, R52). -/
theorem lane_opens {h : Hub} {b : Nat} {e : Entry} (serves : h.laneServes = some (b, .openFor e)) :
    h.channel = .serving ∧ ∃ k, h.scheduler.banks[b]? = some k ∧ k.state = .closed := by
  have ready := lane_ready serves
  obtain ⟨k, known⟩ : ∃ k, h.scheduler.banks[b]? = some k :=
    ⟨_, List.getElem?_eq_getElem (bank_ready_inside (ready ▸ Option.some_ne_none _))⟩
  by_cases closed : k.state = .closed
  · rw [bank_ready_closed known (lane_free serves) closed] at ready
    split at ready
    · next allowed => exact ⟨allowed.1, k, known, closed⟩
    · cases ready
  · rw [bank_ready_open known (lane_free serves) closed] at ready
    split at ready <;> cases ready

/-- A bank that the lane closes is OPEN, and no burst is in flight to it (R33). -/
theorem lane_closes {h : Hub} {b : Nat} (serves : h.laneServes = some (b, .close)) :
    (∃ k, h.scheduler.banks[b]? = some k ∧ k.state = .opened) ∧ ∀ x, h.scheduler.burst = some x → x.bank ≠ b := by
  have ready := lane_ready serves
  obtain ⟨k, known⟩ : ∃ k, h.scheduler.banks[b]? = some k :=
    ⟨_, List.getElem?_eq_getElem (bank_ready_inside (ready ▸ Option.some_ne_none _))⟩
  by_cases closed : k.state = .closed
  · rw [bank_ready_closed known (lane_free serves) closed] at ready
    split at ready
    · cases candidate : h.candidate b <;> rw [candidate] at ready <;> cases ready
    · cases ready
  · rw [bank_ready_open known (lane_free serves) closed] at ready
    split at ready
    · next allowed =>
      obtain ⟨opened, _, _, apart⟩ := (closing_allowed_iff h b k).mp allowed.1
      exact ⟨⟨k, known, opened⟩, apart⟩
    · cases ready

theorem modify_all_closed {u : Scheduler} (closed : u.allClosed = true) (b : Nat) {f : Bank → Bank}
    (closes : ∀ k, (f k).state = .closed) : ({ u with banks := u.banks.modify b f } : Scheduler).allClosed = true := by
  rw [all_closed_iff] at closed ⊢
  intro k inside
  obtain ⟨n, inRange, rfl⟩ := List.mem_iff_getElem.mp inside
  rw [List.getElem_modify]
  split
  · exact closes _
  · exact closed _ (List.getElem_mem _)

theorem replicate_all_closed (n : Nat) (u : Scheduler) (flight : Option Flight) :
    ({ u with flight := flight, banks := List.replicate n Bank.closedRecord } : Scheduler).allClosed = true := by
  rw [all_closed_iff]
  exact fun k inside => List.eq_of_mem_replicate inside ▸ rfl

/-- A bank that is not CLOSED. -/
theorem not_all_closed {u : Scheduler} {b : Nat} {k : Bank} (known : u.banks[b]? = some k) (open_ : k.state ≠ .closed)
    (closed : u.allClosed = true) : False :=
  open_ ((all_closed_iff u).mp closed k (List.mem_of_getElem? known))

theorem upkeep_law_moves {c : Instr} {h g : Hub} (law : UpkeepLaw h) (act : Act c h g) : UpkeepLaw g := by
  intro flying
  cases act.lane_move with
  | same lanes =>
    rw [in_flight_congr lanes.flight] at flying
    rw [all_closed_congr lanes.rows, lanes.burst]
    exact law flying
  | rowOpen serves f same =>
    rw [in_flight_none (u := g.scheduler) (by rw [same]; exact lane_free serves)] at flying
    cases flying
  | rowClose serves f same =>
    rw [in_flight_none (u := g.scheduler) (by rw [same]; exact lane_free serves)] at flying
    cases flying
  | bankOpens known opening f same =>
    rw [in_flight_congr (u := h.scheduler) (by rw [same])] at flying
    exact (not_all_closed known (by rw [opening]; exact BankState.noConfusion) (law flying).1).elim
  | bankCloses known closing f closes same =>
    rw [in_flight_congr (u := h.scheduler) (by rw [same])] at flying
    rw [same]
    exact ⟨modify_all_closed (law flying).1 _ closes, (law flying).2⟩
  | burst granted flies flight rows =>
    rw [in_flight_congr flight, (granted_to granted).rested] at flying
    cases flying
  | burstEnds free flight rows =>
    rw [in_flight_congr flight] at flying
    exact ⟨(all_closed_congr rows).trans (law flying).1, free⟩
  | @launch d t ready same =>
    rw [same] at flying ⊢
    cases d with
    | upkeep =>
      obtain ⟨_, closed, burst, _⟩ := (upkeep_ready_iff h).mp ready
      exact ⟨(all_closed_iff _).mpr closed, burst⟩
    | _ => cases flying
  | landed flies same =>
    rw [same] at flying
    cases flying
  | allClosed flies n same =>
    rw [same] at flying
    cases flying
  | reset same =>
    rw [same] at flying
    cases flying

theorem Quiet.lanes {h g : Hub} (quiet : Quiet h g) : SameLanes h.scheduler g.scheduler := by
  rw [quiet.frame]
  exact ⟨rfl, rfl, rfl⟩

theorem settle_lanes (h : Hub) : SameLanes h.scheduler h.settle.scheduler := by
  obtain ⟨c, ms, t, r, a, i, j, f, same, _⟩ := settle_frame h
  rw [same]
  exact ⟨List.map_map .., rfl, rfl⟩

theorem upkeep_law_congr {h g : Hub} (lanes : SameLanes h.scheduler g.scheduler) (law : UpkeepLaw h) : UpkeepLaw g := by
  unfold UpkeepLaw
  rw [in_flight_congr lanes.flight, all_closed_congr lanes.rows, lanes.burst]
  exact law

theorem upkeep_law_kept : KeptByEveryStep UpkeepLaw :=
  kept_by_moves (fun quiet => upkeep_law_congr quiet.lanes) upkeep_law_moves (fun quiet => upkeep_law_congr quiet.lanes)
    (upkeep_law_congr (settle_lanes _)) (fun _ flying => by cases flying) fun _ flying => by cases flying

/-! ### The channel -/

/-- What a move does to the channel. -/
inductive ChannelMove (h g : Hub) : Prop
  | same (channel : g.channel = h.channel)
  | wakes (resting : h.channel = .resting) (unchanged : h.config.change = none) (leaving : g.channel = .leaving)
  | serves (serving : g.channel = .serving)
  | rests (ready : h.retainEnterReady = true) (resting : g.channel = .resting) (table : g.table = h.table)
      (closed : g.scheduler.allClosed = true) (account : g.upkeep.debt = 0 ∧ g.upkeep.timer = Option.none)
  | bringup (channel : g.channel = .bringup) (empty : g.table = [])
  | unready (channel : g.channel = .unready) (empty : g.table = [])

theorem WorkOnly.channel {h g : Hub} (work : WorkOnly h g) : g.channel = h.channel := by
  obtain ⟨t, f, u, ms, ls, rfl⟩ := work
  rfl

theorem want_memory_channel (h : Hub) (p : Port) : ((h.wantMemory p).channel = h.channel ∧ (h.wantMemory p).upkeep = h.upkeep) ∨
    (h.channel = .resting ∧ h.config.change = none ∧ (h.wantMemory p).channel = .leaving) := by
  by_cases rests : h.channel = .resting ∧ h.config.change = none
  · rw [want_memory_resting p rests.1 rests.2]
    exact .inr ⟨rests.1, rests.2, rfl⟩
  · rw [want_memory_awake p (by rwa [← not_and_or])]
    exact .inl ⟨rfl, rfl⟩

theorem ChannelMove.want (h : Hub) (p : Port) : ChannelMove h (h.wantMemory p) := by
  rcases want_memory_channel h p with ⟨same, _⟩ | ⟨resting, unchanged, leaving⟩
  · exact .same same
  · exact .wakes resting unchanged leaving

theorem Act.channel_move {c : Instr} {h g : Hub} (act : Act c h g) : ChannelMove h g := by
  cases act with
  | @admits p kind tag words reserved addr a i data passes =>
    rcases want_memory_channel ({ h with table := h.table ++ [admitted h p kind tag words a i data] }.addTag p tag) p with
      ⟨same, _⟩ | ⟨resting, unchanged, leaving⟩
    · exact .same same
    · exact .wakes resting unchanged leaving
  | take fresh free unblocked => exact .same (work_place_take _ _ _).channel
  | leave slot held granted => exact .same (work_leave _ _).channel
  | @want p => exact .want h p
  | @wake p tag fresh =>
    rcases want_memory_channel h p with ⟨same, _⟩ | ⟨resting, unchanged, leaving⟩
    · exact .same same
    · exact .wakes resting unchanged leaving
  | commit fresh outside unchanged passes => exact .same (work_commit_aborts _ _ _).channel
  | hubReset fresh outside unchanged => exact .same (work_discard h).channel
  | placeReply head owner => exact .same (work_placed _ _ _).channel
  | @teardown p command =>
    obtain ⟨u, ms, torn, _⟩ := teardown_units h p
    rw [torn]
    exact .same (work_rechecked h p).channel
  | completeRead command flying kind served => exact .same (work_complete_burst _ _ _).channel
  | completeWrite command flying kind served => exact .same (work_complete_burst (writeDone h _) _ _).channel
  | leavingEnds flying outside leaving unchanged =>
    rw [become_serving_eq]
    exact .serves rfl
  | bringupEnds flying inside =>
    rw [end_bringup_eq]
    split <;> exact .serves rfl
  | retainEnter ready => exact .rests ready rfl rfl ((all_closed_iff _).mpr ((retain_enter_ready_iff h).mp ready).2.1) ⟨rfl, rfl⟩
  | waitEnds found => exact .same (work_scan _).channel
  | grantingEnds found => exact .same (work_leave _ _).channel
  | copy command pending idle out => exact .bringup rfl (commit_aborts_empties ((idle_iff _).mp idle).1 _)
  | reset command pending idle out layers => exact .unready rfl rfl
  | _ => exact .same rfl

/-! ### Rest (R52, R107) -/

/-- No entry is served outside SERVING. -/
def Unserved (h : Hub) : Prop :=
  h.channel ≠ .serving → ∀ e ∈ h.table, e.phase ≠ .queued ∧ e.phase ≠ .active ∧ (e.phase = .held → e.holds.channel = true)

/-- While the channel is RESTING nothing is open and nothing is owed. -/
def AtRest (h : Hub) : Prop :=
  h.channel = .resting → h.scheduler.allClosed = true ∧ h.upkeep.debt = 0 ∧ h.upkeep.timer = Option.none

theorem WorkOnly.upkeep {h g : Hub} (work : WorkOnly h g) : g.upkeep = h.upkeep := by
  obtain ⟨t, f, u, ms, ls, rfl⟩ := work
  rfl

/-- An UPKEEP that completes leaves a debt of 0 at 0. -/
theorem paid_rests {h : Hub} (t : Nat) (rests : h.upkeep.debt = 0 ∧ h.upkeep.timer = Option.none) :
    (upkeepPaid h t).upkeep.debt = 0 ∧ (upkeepPaid h t).upkeep.timer = none :=
  ⟨by show h.upkeep.debt - 1 = 0; rw [rests.1], rests.2⟩

/-- A move that begins and ends in RESTING leaves nothing owed. -/
theorem Act.account_rests {c : Instr} {h g : Hub} (act : Act c h g) (resting : g.channel = .resting)
    (rests : h.upkeep.debt = 0 ∧ h.upkeep.timer = Option.none) : g.upkeep.debt = 0 ∧ g.upkeep.timer = Option.none := by
  have of_eq {k : Hub} (same : k.upkeep = h.upkeep) : k.upkeep.debt = 0 ∧ k.upkeep.timer = Option.none := same ▸ rests
  cases act with
  | @admits p kind tag words reserved addr a i data passes =>
    rcases want_memory_channel ({ h with table := h.table ++ [admitted h p kind tag words a i data] }.addTag p tag) p with
      ⟨_, same⟩ | ⟨_, _, leaving⟩
    · exact of_eq same
    · rw [leaving] at resting
      cases resting
  | take fresh free unblocked => exact of_eq (work_place_take _ _ _).upkeep
  | leave slot held granted => exact of_eq (work_leave _ _).upkeep
  | @want p =>
    rcases want_memory_channel h p with ⟨_, same⟩ | ⟨_, _, leaving⟩
    · exact of_eq same
    · rw [leaving] at resting
      cases resting
  | @wake p tag fresh =>
    rcases want_memory_channel h p with ⟨_, same⟩ | ⟨_, _, leaving⟩
    · exact of_eq same
    · have leaves : (h.wantMemory p).channel = .resting := resting
      rw [leaving] at leaves
      cases leaves
  | commit fresh outside unchanged passes => exact of_eq (work_commit_aborts _ _ _).upkeep
  | hubReset fresh outside unchanged => exact of_eq (work_discard h).upkeep
  | placeReply head owner => exact of_eq (work_placed _ _ _).upkeep
  | @teardown p command =>
    obtain ⟨u, ms, torn, _⟩ := teardown_units h p
    rw [torn]
    exact of_eq (work_rechecked h p).upkeep
  | completeRead command flying kind served => exact of_eq (work_complete_burst _ _ _).upkeep
  | completeWrite command flying kind served => exact of_eq (work_complete_burst (writeDone h _) _ _).upkeep
  | @paid t flying outside => exact paid_rests t rests
  | leavingEnds flying outside leaving unchanged =>
    rw [become_serving_eq] at resting
    cases resting
  | @bringupUpkeep t r flying inside => exact paid_rests t rests
  | bringupEnds flying inside =>
    rw [end_bringup_eq] at resting
    split at resting <;> cases resting
  | retainEnter ready => exact ⟨rfl, rfl⟩
  | interval later debt level loaded =>
    rw [rests.2] at loaded
    cases loaded
  | waitEnds found => exact of_eq (work_scan _).upkeep
  | grantingEnds found => exact of_eq (work_leave _ _).upkeep
  | copy command pending idle out => cases resting
  | reset command pending idle out layers => cases resting
  | _ => exact rests

/-- A move that begins in RESTING leaves every bank CLOSED. -/
theorem LaneMove.closed {h g : Hub} (move : LaneMove h g) (resting : h.channel = .resting)
    (closed : h.scheduler.allClosed = true) : g.scheduler.allClosed = true := by
  cases move with
  | same lanes => exact (all_closed_congr lanes.rows).trans closed
  | rowOpen serves f same =>
    rw [(lane_opens serves).1] at resting
    cases resting
  | rowClose serves f same =>
    obtain ⟨⟨k, known, opened⟩, _⟩ := lane_closes serves
    exact (not_all_closed known (by rw [opened]; exact BankState.noConfusion) closed).elim
  | bankOpens known opening f same =>
    exact (not_all_closed known (by rw [opening]; exact BankState.noConfusion) closed).elim
  | bankCloses known closing f closes same =>
    rw [same]
    exact modify_all_closed closed _ closes
  | burst granted flies flight rows => exact (all_closed_congr rows).trans closed
  | burstEnds free flight rows => exact (all_closed_congr rows).trans closed
  | launch t ready same =>
    rw [same]
    exact closed
  | landed flies same =>
    rw [same]
    exact closed
  | allClosed flies n same =>
    rw [same]
    exact replicate_all_closed n _ _
  | reset same =>
    rw [same]
    rfl

theorem at_rest_moves {c : Instr} {h g : Hub} (law : AtRest h) (act : Act c h g) : AtRest g := by
  intro resting
  cases act.channel_move with
  | same channel =>
    obtain ⟨closed, account⟩ := law (channel ▸ resting)
    exact ⟨act.lane_move.closed (channel ▸ resting) closed, act.account_rests resting account⟩
  | rests ready channel table closed account => exact ⟨closed, account⟩
  | wakes was unchanged leaving =>
    rw [leaving] at resting
    cases resting
  | serves serving =>
    rw [serving] at resting
    cases resting
  | bringup channel empty =>
    rw [channel] at resting
    cases resting
  | unready channel empty =>
    rw [channel] at resting
    cases resting

theorem admitted_unserved {h : Hub} {p : Port} {kind : Access} {tag : Byte} {words reserved addr a : Nat} {i : Index}
    (data : List Word) (passes : h.admission p kind tag words reserved addr = .ok (a, i)) (outside : h.channel ≠ .serving) :
    (admitted h p kind tag words a i data).phase = .held ∧ (admitted h p kind tag words a i data).holds.channel = true := by
  obtain ⟨_, ready, _⟩ := admission_fresh passes
  have hold : (h.newHolds (h.newEntry p kind tag words a i data)).channel = true := by
    unfold Hub.newHolds
    cases channel : h.channel <;> simp_all
  rcases promote_cases { h.newEntry p kind tag words a i data with holds := h.newHolds (h.newEntry p kind tag words a i data) }
    with ⟨_, empty, _⟩ | ⟨_, same⟩
  · simp [Holds.isEmpty, hold] at empty
  · have kept : admitted h p kind tag words a i data = _ := same
    rw [kept]
    exact ⟨rfl, hold⟩

/-- An entry that is eased without its CHANNEL hold stays unserved. -/
theorem Eases.unserved {h k : Hub} {e e' : Entry} (eases : Eases h k false e e')
    (unserved : e.phase ≠ .queued ∧ e.phase ≠ .active ∧ (e.phase = .held → e.holds.channel = true)) :
    e'.phase ≠ .queued ∧ e'.phase ≠ .active ∧ (e'.phase = .held → e'.holds.channel = true) := by
  have channel : e'.holds.channel = e.holds.channel := by
    rcases eases.channel with same | ⟨no, _⟩
    · exact same
    · cases no
  rcases eases.phase with same | ⟨held, _, _, clear⟩
  · rw [same, channel]
    exact unserved
  · rw [channel, unserved.2.2 held] at clear
    cases clear

theorem TableMove.unserved {h g : Hub} (items : ItemsLaw h) (law : Unserved h) (move : TableMove h g)
    (before : h.channel ≠ .serving) (after : g.channel ≠ .serving) :
    ∀ e ∈ g.table, e.phase ≠ .queued ∧ e.phase ≠ .active ∧ (e.phase = .held → e.holds.channel = true) := by
  cases move with
  | @eased k clears gone eased serving =>
    cases clears with
    | true => exact absurd (serving rfl) after
    | false =>
      intro e' member
      obtain ⟨e, inTable, _, eases⟩ := eased.before member
      exact eases.unserved (law before e inTable)
  | admits data passes same =>
    intro e member
    rw [same, List.mem_append, List.mem_singleton] at member
    rcases member with inTable | rfl
    · exact law before e inTable
    · obtain ⟨held, hold⟩ := admitted_unserved data passes before
      rw [held]
      exact ⟨Phase.noConfusion, Phase.noConfusion, fun _ => hold⟩
  | starts granted same => exact absurd (granted_to granted).serving before
  | completes completes =>
    obtain ⟨x, e, f, d, c, b, burst, found, progress, _, rfl⟩ := completes
    obtain ⟨X, phase, gone, put, _, eased, phases⟩ := outcome_eased
      { h with dram := d, check := c, scheduler := { h.scheduler with banks := b } } e.index f
    obtain ⟨member, _⟩ := found_by_key (show h.table.find? (fun e => e.index == x.entry) = some e from found)
    have unstopped : h.upkeep.items.stop = false := by
      rw [(upkeep_table items).1 before]
      rfl
    have fine : phase = .done ∨ phase = f.phase := by
      rcases phases with ⟨_, own, _⟩ | ⟨_, _, done | own | ⟨_, stop⟩, _⟩
      · exact .inr own
      · exact .inl done
      · exact .inr own
      · exact absurd stop (by rw [unstopped]; exact Bool.false_ne_true)
    intro e' inside
    obtain ⟨y, inTable, _, eases⟩ := eased.before inside
    refine eases.unserved ?_
    rw [put, putAt] at inTable
    obtain ⟨z, origin, rfl⟩ := List.mem_map.mp inTable
    split
    · rcases fine with rfl | rfl
      · exact ⟨Phase.noConfusion, Phase.noConfusion, fun no => by cases no⟩
      · rw [progress]
        exact law before e member
    · exact law before z origin

theorem unserved_moves {c : Instr} {h g : Hub} (items : ItemsLaw h) (law : Unserved h) (act : Act c h g) : Unserved g := by
  intro outside
  cases act.channel_move with
  | same channel => exact act.table_move.unserved items law (channel ▸ outside) outside
  | wakes was unchanged leaving =>
    exact act.table_move.unserved items law (by rw [was]; exact Channel.noConfusion) outside
  | serves serving => exact absurd serving outside
  | rests ready channel table closed account =>
    obtain ⟨wanted, _⟩ := (retain_enter_ready_iff h).mp ready
    refine act.table_move.unserved items law (fun serving => ?_) outside
    have none_left := (rest_table items).2.2.2.2 (by rw [serving]; exact Channel.noConfusion)
      (.inl (by rw [serving]; exact Channel.noConfusion))
    rw [none_left] at wanted
    cases wanted
  | bringup channel empty => exact fun e member => by rw [empty] at member; cases member
  | unready channel empty => exact fun e member => by rw [empty] at member; cases member

theorem Unserved.of_empty {h : Hub} (empty : h.table = []) : Unserved h := fun _ e member => by rw [empty] at member; cases member

/-- The end of an event keeps rest and the waiting of the entries. -/
theorem evaluate_resting {h : Hub} (rests : AtRest h) (waits : Unserved h) :
    AtRest h.evaluateRest ∧ Unserved h.evaluateRest := by
  rcases evaluate_cases h with ⟨_, _, same⟩ | ⟨_, _, same⟩ | ⟨_, same⟩
  · rw [same]
    by_cases enters : h.channel = .serving ∧ h.restWanted = true
    · rw [if_pos enters]
      exact ⟨fun no => (by cases no), .of_empty ((wanted_iff h).mp enters.2).2.1⟩
    · rw [if_neg enters]
      exact ⟨rests, waits⟩
  · rw [same]
    exact ⟨rests, waits⟩
  · rw [same]
    split
    · next wanted =>
      refine ⟨fun no => (by cases no), .of_empty ?_⟩
      rw [show (servedTo h .entering).table = h.table.map channelCleared from rfl, ((wanted_iff h).mp wanted).2.1]
      rfl
    · exact ⟨fun no => (by cases no), fun outside => absurd rfl outside⟩

theorem settle_resting {h : Hub} (middle : AtRest h ∧ Unserved h) : RestingLaw h.settle := by
  obtain ⟨rests, waits⟩ := evaluate_resting middle.1 middle.2
  obtain ⟨⟨channel, table, _⟩, upkeep, _⟩ := settle_parts h
  refine ⟨settle_items_law h, ?_, ?_⟩
  · rw [channel, settle_closed, upkeep]
    exact rests
  · rw [channel, table]
    exact waits

theorem Quiet.channel {h g : Hub} (quiet : Quiet h g) : g.channel = h.channel := by rw [quiet.frame]; rfl

theorem unserved_quiet {h g : Hub} (quiet : Quiet h g) (law : Unserved h) : Unserved g := by
  rw [Unserved, quiet.channel, quiet.table]
  exact law

theorem at_rest_quiet {h g : Hub} (quiet : Quiet h g) (law : AtRest h) : AtRest g := by
  rw [quiet.frame]
  exact law

/-- No law of the items looks at what a quiet change touches, but that the votes and the links do not decide them. -/
theorem items_law_quiet {h g : Hub} (quiet : Quiet h g) (law : ItemsLaw h) : ItemsLaw g := by
  rw [quiet.frame]
  exact law

theorem resting_law_kept : KeptByEveryStep RestingLaw :=
  kept_by_moves (middle := fun h => AtRest h ∧ Unserved h)
    (fun quiet law => ⟨items_law_quiet quiet law.1, at_rest_quiet quiet law.2.1, unserved_quiet quiet law.2.2⟩)
    (fun law act => ⟨at_rest_moves law.2.1 act, unserved_moves law.1 law.2.2 act⟩)
    (fun quiet middle => ⟨at_rest_quiet quiet middle.1, unserved_quiet quiet middle.2⟩) settle_resting power_up_resting_law
    fun n => power_up_resting_law n

/-- Settles O56, law by law. -/
theorem stepsKeepUpkeepAndRestApartFromService : Obligations.StepsKeepUpkeepAndRestApartFromService :=
  ⟨upkeep_law_kept, resting_law_kept⟩

end Sys2Proof.Safety
end

section
/-! SUPPORT. The moves by what they do to the lease table and the wait list, and a proof of the statement on leases apart and
waits blocked. -/

namespace Sys2Proof.Safety

open Sys2Proof.Machine

/-! ### How the slots change -/

/-- Every lease of `h` stands in its slot in `g`, in whatever phase. -/
def SlotsStand (h g : Hub) : Prop :=
  ∃ f : LeaseSlot → LeaseSlot, g.leases.slots = h.leases.slots.map f ∧ ∀ x ∈ h.leases.slots, (f x).id = x.id ∧
    ∀ l, x.lease = some l → ∃ m, (f x).lease = some m ∧ SameLease l m

/-- Every lease of `g` stands in `h`, in whatever phase. -/
def StoodBefore (h g : Hub) : Prop := ∀ m, Standing g m → ∃ l, Standing h l ∧ SameLease l m

theorem SlotsStand.of_slots {h g : Hub} (slots : g.leases.slots = h.leases.slots) : SlotsStand h g :=
  ⟨id, by rw [slots, List.map_id], fun _ _ => ⟨rfl, fun l held => ⟨l, held, .refl l⟩⟩⟩

theorem SlotsStand.trans {h k g : Hub} (a : SlotsStand h k) (b : SlotsStand k g) : SlotsStand h g := by
  obtain ⟨f, first, keeps⟩ := a
  obtain ⟨f', second, keeps'⟩ := b
  refine ⟨f' ∘ f, by rw [second, first, List.map_map], fun x inside => ?_⟩
  have inside' : f x ∈ k.leases.slots := first ▸ List.mem_map_of_mem inside
  refine ⟨(keeps' _ inside').1.trans (keeps x inside).1, fun l held => ?_⟩
  obtain ⟨m, held', same⟩ := (keeps x inside).2 l held
  obtain ⟨n, held'', same'⟩ := (keeps' _ inside').2 m held'
  exact ⟨n, held'', same.trans same'⟩

theorem SlotsStand.leases_stand {h g : Hub} (stand : SlotsStand h g) : LeasesStand h g := by
  obtain ⟨f, slots, keeps⟩ := stand
  rintro l ⟨x, inside, held⟩
  obtain ⟨m, held', same⟩ := (keeps x inside).2 l held
  exact ⟨m, ⟨f x, slots ▸ List.mem_map_of_mem inside, held'⟩, same⟩

theorem SlotsStand.slots_law {h g : Hub} (stand : SlotsStand h g) (law : SlotsLaw h) : SlotsLaw g := by
  obtain ⟨f, slots, keeps⟩ := stand
  rw [SlotsLaw, slots, List.map_map, ← law]
  exact List.map_congr_left fun x inside => (keeps x inside).1

/-- Where no slot is free none becomes free. -/
theorem SlotsStand.taken {h g : Hub} (stand : SlotsStand h g) (taken : ∀ x ∈ h.leases.slots, x.lease ≠ none) :
    ∀ x ∈ g.leases.slots, x.lease ≠ none := by
  obtain ⟨f, slots, keeps⟩ := stand
  intro y inside
  rw [slots] at inside
  obtain ⟨x, before, rfl⟩ := List.mem_map.mp inside
  obtain ⟨l, held⟩ := Option.ne_none_iff_exists'.mp (taken x before)
  obtain ⟨m, held', _⟩ := (keeps x before).2 l held
  exact held' ▸ Option.some_ne_none m

theorem StoodBefore.of_slots {h g : Hub} (slots : g.leases.slots = h.leases.slots) : StoodBefore h g :=
  fun m stands => ⟨m, by unfold Standing at *; rwa [slots] at stands, .refl m⟩

theorem StoodBefore.trans {h k g : Hub} (a : StoodBefore h k) (b : StoodBefore k g) : StoodBefore h g := by
  intro n stands
  obtain ⟨m, stood, same⟩ := b n stands
  obtain ⟨l, first, same'⟩ := a m stood
  exact ⟨l, first, same'.trans same⟩

/-- Every slot keeps its lease or frees it. -/
theorem stood_of_map {h g : Hub} (f : LeaseSlot → LeaseSlot) (slots : g.leases.slots = h.leases.slots.map f)
    (from_ : ∀ x m, (f x).lease = some m → ∃ l, x.lease = some l ∧ SameLease l m) : StoodBefore h g := by
  rintro m ⟨y, inside, held⟩
  rw [slots] at inside
  obtain ⟨x, before, rfl⟩ := List.mem_map.mp inside
  obtain ⟨l, held', same⟩ := from_ x m held
  exact ⟨l, ⟨x, before, held'⟩, same⟩

/-! ### Grants, removals and placings -/

/-- Both ways. -/
def SlotsAgree (h g : Hub) : Prop := SlotsStand h g ∧ StoodBefore h g

theorem SlotsAgree.of_slots {h g : Hub} (slots : g.leases.slots = h.leases.slots) : SlotsAgree h g :=
  ⟨.of_slots slots, .of_slots slots⟩

theorem SlotsAgree.trans {h k g : Hub} (a : SlotsAgree h k) (b : SlotsAgree k g) : SlotsAgree h g :=
  ⟨a.1.trans b.1, a.2.trans b.2⟩

/-- A new phase for some of the leases. -/
theorem agree_of_phases {h g : Hub} (f : LeaseSlot → LeaseSlot) (slots : g.leases.slots = h.leases.slots.map f)
    (phases : ∀ x, ∃ new : Lease → LeasePhase, f x = { x with lease := x.lease.map (fun l => { l with phase := new l }) }) :
    SlotsAgree h g := by
  refine ⟨⟨f, slots, fun x _ => ?_⟩, stood_of_map f slots fun x m held => ?_⟩
  · obtain ⟨new, same⟩ := phases x
    rw [same]
    exact ⟨rfl, fun l held => ⟨{ l with phase := new l }, by rw [held]; rfl, rfl, rfl, rfl, rfl⟩⟩
  · obtain ⟨new, same⟩ := phases x
    rw [same] at held
    obtain ⟨l, lease, rfl⟩ := Option.map_eq_some_iff.mp held
    exact ⟨l, lease, rfl, rfl, rfl, rfl⟩

theorem unchanged_phases (x : LeaseSlot) : x = { x with lease := x.lease.map (fun l => { l with phase := l.phase }) } := by
  obtain ⟨id, generation, lease⟩ := x
  cases lease <;> rfl

theorem agree_on_slot (h : Hub) (id : LeaseId) (phase : LeasePhase) {g : Hub}
    (slots : g.leases.slots = (h.leases.onSlot id (fun s =>
      { s with lease := s.lease.map (fun l => { l with phase := phase }) })).slots) : SlotsAgree h g := by
  refine agree_of_phases _ slots fun x => ?_
  by_cases own : x.id = id
  · exact ⟨fun _ => phase, if_pos own⟩
  · exact ⟨Lease.phase, (if_neg own).trans (unchanged_phases x)⟩

theorem agree_start_lease (h : Hub) (id : LeaseId) (duration : Nat) : SlotsAgree h (h.startLease id duration) :=
  agree_on_slot h id (.granted (h.hubTime + duration)) rfl

theorem agree_grant (h : Hub) (id : LeaseId) : SlotsAgree h (h.grantIfDrained id) := by
  rcases grant_if_drained_cases h id with same | ⟨_, _, duration, _, _, _, _, _, same⟩
  · rw [same]
    exact .of_slots rfl
  · rw [same]
    exact agree_start_lease h id duration

theorem agree_grants (h : Hub) (ids : List LeaseId) : SlotsAgree h (ids.foldl Hub.grantIfDrained h) := by
  induction ids generalizing h with
  | nil => exact .of_slots rfl
  | cons id ids ih => exact (agree_grant h id).trans (ih _)

theorem agree_removed (h : Hub) (gone : List Index) : SlotsAgree h (h.removeEntries gone) := by
  refine agree_of_phases (slotWithout gone) (by rw [remove_entries_eq, Hub.release_leases]) fun x => ?_
  refine ⟨fun l => match l.phase with
    | .granting duration deadline drain tag =>
      .granting duration deadline (drain.filter (fun i => !gone.contains i)) tag
    | .granted t => .granted t, ?_⟩
  unfold slotWithout
  refine congrArg (fun o => { x with lease := o }) ?_
  cases x.lease with
  | none => rfl
  | some l =>
    cases phase : l.phase with
    | granting duration deadline drain tag => simp only [Option.map_some, phase]
    | granted t =>
      simp only [Option.map_some, phase]
      rw [← phase]

theorem agree_freed (h : Hub) (gone : List Index) : SlotsAgree h (h.freeEntries gone) :=
  (agree_removed h gone).trans (agree_grants _ _)

theorem stand_occupied {h : Hub} {id : LeaseId} {w : Waiting} (law : SlotsLaw h) (free : h.freeSlot = some id) :
    SlotsStand h (h.occupySlot id w) := by
  refine ⟨_, rfl, fun x inside => ?_⟩
  obtain ⟨y, inside', rfl, unheld, _⟩ := free_slot_some free
  dsimp only
  by_cases own : x.id = y.id
  · rw [if_pos own]
    refine ⟨rfl, fun l held => ?_⟩
    rw [slot_eq_of_id_eq law inside inside' own, unheld] at held
    cases held
  · rw [if_neg own]
    exact ⟨rfl, fun l held => ⟨l, held, .refl l⟩⟩

/-! ### The wait list after a scan -/

/-- Every request of a list is blocked. -/
def AllStay (h : Hub) (ws : List Waiting) : Prop := ∀ earlier w later, ws = earlier ++ w :: later → Stays h earlier w

theorem stays_later {h g : Hub} (stand : SlotsStand h g) {earlier : List Waiting} {w : Waiting} (stays : Stays h earlier w) :
    Stays g earlier w := by
  rcases stays with taken | conflict | overlap
  · exact .inl (stand.taken taken)
  · obtain ⟨l, stands, meets⟩ := (some_lease_iff h _).mp conflict
    obtain ⟨m, stands', owner, base, length, mode⟩ := stand.leases_stand l stands
    refine .inr (.inl ((some_lease_iff g _).mpr ⟨m, stands', ?_⟩))
    rw [Lease.conflictsWithRequest, owner, base, length, mode]
    exact meets
  · exact .inr (.inr overlap)

theorem AllStay.later {h g : Hub} (stand : SlotsStand h g) {ws : List Waiting} (stays : AllStay h ws) : AllStay g ws :=
  fun earlier w later split => stays_later stand (stays earlier w later split)

theorem wait_law_iff (h : Hub) : WaitLaw h ↔ SlotsLaw h ∧ AllStay h h.leases.waits := by
  refine and_congr Iff.rfl ⟨fun law earlier w later split => ?_, fun stays earlier w later split => ?_⟩
  · rcases law earlier w later split with conflict | taken | overlap
    · exact .inr (.inl ((some_lease_iff h _).mpr conflict))
    · exact .inl taken
    · exact .inr (.inr overlap)
  · rcases stays earlier w later split with taken | conflict | overlap
    · exact .inr (.inl taken)
    · exact .inl ((some_lease_iff h _).mp conflict)
    · exact .inr (.inr overlap)

theorem all_stay_append {h : Hub} {ws : List Waiting} {w : Waiting} (stays : AllStay h ws) (last : Stays h ws w) :
    AllStay h (ws ++ [w]) := by
  intro earlier v later split
  rcases List.append_eq_append_iff.mp split with ⟨more, rfl, same⟩ | ⟨more, rfl, same⟩
  · rcases List.cons_eq_append_iff.mp same with ⟨rfl, same⟩ | ⟨rest, rfl, same⟩
    · cases same
      rw [List.append_nil]
      exact last
    · simp at same
  · cases more with
    | nil =>
      cases same
      rw [List.append_nil] at last
      exact last
    | cons a more =>
      cases same
      exact stays earlier v more rfl

/-- Every request that a scan leaves is blocked. -/
theorem scan_all_stay {h : Hub} {kept : List Waiting} (ws : List Waiting) (law : SlotsLaw h) (stays : AllStay h kept) :
    SlotsLaw (h.scanFrom kept ws) ∧ AllStay (h.scanFrom kept ws) (h.scanFrom kept ws).leases.waits := by
  induction ws generalizing h kept with
  | nil => exact ⟨law, stays⟩
  | cons w ws ih =>
    by_cases stay : Stays h kept w
    · rw [scan_stays stay]
      exact ih law (all_stay_append stays stay)
    · obtain ⟨id, free, same⟩ := scan_places (ws := ws) stay
      rw [same]
      have stand : SlotsStand h ((h.occupySlot id w).grantIfDrained id) :=
        (stand_occupied law free).trans (agree_grant _ id).1
      exact ih (stand.slots_law law) (stays.later stand)

/-! ### The moves -/

/-- What a move does to the lease table and the wait list. -/
inductive LeaseMove (h g : Hub) : Prop
  | agrees (slots : SlotsAgree h g) (waits : g.leases.waits = h.leases.waits)
  | waits (w : Waiting) (blocked : h.blocked w = true) (slots : g.leases.slots = h.leases.slots)
      (waits : g.leases.waits = h.leases.waits ++ [w])
  | takes (w : Waiting) (id : LeaseId) (free : h.freeSlot = some id) (unblocked : h.blocked w = false)
      (slots : SlotsAgree (h.occupySlot id w) g) (waits : g.leases.waits = h.leases.waits)
  | scans (k : Hub) (before : StoodBefore h k) (law : SlotsLaw h → SlotsLaw k) (slots : SlotsAgree k.scanWaits g)
      (waits : g.leases.waits = k.scanWaits.leases.waits)
  | empties (none_left : ∀ m, ¬ Standing g m) (law : SlotsLaw h → SlotsLaw g) (waits : g.leases.waits = [])

theorem LeaseMove.of_leases {h g : Hub} (same : g.leases = h.leases) : LeaseMove h g :=
  .agrees (.of_slots (by rw [same])) (by rw [same])

theorem want_memory_leases (h : Hub) (p : Port) : (h.wantMemory p).leases = h.leases := by
  obtain ⟨c, r, u, same, _⟩ := want_memory_frame h p
  rw [same]

@[simp] theorem grants_waits (h : Hub) (ids : List LeaseId) :
    (ids.foldl Hub.grantIfDrained h).leases.waits = h.leases.waits := by
  obtain ⟨u, ms, same, _, waits⟩ := (grants_placed ids (.refl (h := h))).frame
  rw [same]
  exact waits

theorem removed_waits (h : Hub) (gone : List Index) : (h.removeEntries gone).leases.waits = h.leases.waits := by
  rw [remove_entries_eq, Hub.release_leases]

theorem freed_waits (h : Hub) (gone : List Index) : (h.freeEntries gone).leases.waits = h.leases.waits := by
  rw [Hub.freeEntries, Hub.grantDrained, grants_waits, removed_waits]

theorem freed_slots_before (h : Hub) (c : LeaseSlot → Bool) : StoodBefore h (h.freeSlots c) := by
  refine stood_of_map _ rfl fun x m held => ?_
  split at held
  · cases held
  · exact ⟨m, held, .refl m⟩

theorem freed_slots_law {h : Hub} (c : LeaseSlot → Bool) (law : SlotsLaw h) : SlotsLaw (h.freeSlots c) := by
  rw [SlotsLaw, show (h.freeSlots c).leases.slots = h.leases.slots.map _ from rfl, List.map_map, ← law]
  refine List.map_congr_left fun x _ => ?_
  simp only [Function.comp]
  split <;> rfl

/-- A lease that leaves: its slot is free, and the wait list is scanned. -/
theorem LeaseMove.leave {h g : Hub} (id : LeaseId) (same : g.leases = (h.leaseLeaves id).leases) : LeaseMove h g :=
  .scans ((h.freeSlots (fun x => x.id == id)).recheck) (freed_slots_before h _) (fun law => freed_slots_law _ law)
    (.of_slots (by rw [same]; rfl)) (by rw [same]; rfl)

theorem agree_abort_answered (h : Hub) : SlotsAgree h h.abortAnswered ∧ h.abortAnswered.leases.waits = h.leases.waits := by
  rw [abort_answered_eq (m := quadOf (abortedLayer h)) (quad_of_get _), removed_waits]
  exact ⟨.trans (.of_slots rfl) (agree_removed _ _), rfl⟩

/-- Emptied leases, after changes of their phases. -/
theorem LeaseMove.emptied {h k g : Hub} (agree : SlotsAgree h k)
    (slots : g.leases.slots = k.leases.slots.map (fun (x : LeaseSlot) => { x with lease := none }))
    (waits : g.leases.waits = []) : LeaseMove h g := by
  refine .empties (fun m stands => ?_) (fun law => ?_) waits
  · obtain ⟨x, inside, held⟩ := stands
    rw [slots] at inside
    obtain ⟨y, _, rfl⟩ := List.mem_map.mp inside
    cases held
  · rw [SlotsLaw, slots, List.map_map]
    exact agree.1.slots_law law

theorem empties_of_slots {h g : Hub} (slots : g.leases.slots = h.leases.slots.map (fun (x : LeaseSlot) => { x with lease := none }))
    (waits : g.leases.waits = []) : LeaseMove h g := .emptied (.of_slots rfl) slots waits

theorem commit_aborts_lease_move {h g : Hub} (abort geometry : Bool) (same : g.leases = (h.commitAborts abort geometry).leases) :
    LeaseMove h g := by
  obtain ⟨both, empties, nothing, aborts⟩ := commit_aborts_eq h
  obtain ⟨agree, waits⟩ := agree_abort_answered h
  cases abort <;> cases geometry
  · rw [nothing] at same
    exact .of_leases same
  · obtain ⟨ms, emptied, _⟩ := emptied h
    rw [empties, emptied] at same
    exact .emptied (k := h) (.of_slots rfl) (by rw [same]; rfl) (by rw [same]; rfl)
  · rw [aborts] at same
    exact .agrees (agree.trans ((agree_grants _ _).trans (.of_slots (by rw [same]; rfl))))
      (by rw [same, Hub.grantDrained, grants_waits, waits])
  · obtain ⟨ms, emptied, _⟩ := emptied h.abortAnswered
    rw [both, emptied] at same
    exact .emptied agree (by rw [same]; rfl) (by rw [same]; rfl)

theorem abort_paid_leases (m : Hub) (i : Index) (f : Entry) (kind : AbortKind) : (abortPaid m i f kind).leases = m.leases := by
  cases kind <;> rfl

/-- The outcome of a burst frees an entry or leaves the leases. -/
theorem outcome_leases (m : Hub) (i : Index) (f : Entry) :
    SlotsAgree m (burstOutcome m i f) ∧ (burstOutcome m i f).leases.waits = m.leases.waits := by
  obtain mark | ⟨kind, mark⟩ := Option.eq_none_or_eq_some f.aborting
  · rw [outcome_unmarked m i mark]
    split
    · exact ⟨.of_slots rfl, rfl⟩
    · split <;> exact ⟨.of_slots rfl, rfl⟩
  · rw [outcome_aborting m i mark, freed_waits, abort_paid_leases]
    exact ⟨.trans (.of_slots (by rw [abort_paid_leases])) (agree_freed _ _), rfl⟩

theorem Completes.lease_move {h g : Hub} (completes : Completes h g) : LeaseMove h g := by
  obtain ⟨x, e, f, d, c, b, _, _, _, _, rfl⟩ := completes
  obtain ⟨agree, waits⟩ := outcome_leases { h with dram := d, check := c, scheduler := { h.scheduler with banks := b } } e.index f
  exact .agrees (.trans (.of_slots rfl) agree) waits

theorem Act.lease_move {c : Instr} {h g : Hub} (act : Act c h g) : LeaseMove h g := by
  cases act with
  | admits data passes => exact .of_leases (want_memory_leases _ _)
  | wait fresh room blocked => exact .waits _ blocked rfl rfl
  | @take w id fresh free unblocked =>
    rcases place_take_cases h id w with ⟨_, quiet⟩ | ⟨_, same⟩
    · have leases : (h.placeTake id w).leases.slots = ((h.occupySlot id w).startLease id w.duration).leases.slots ∧
          (h.placeTake id w).leases.waits = h.leases.waits := by
        rw [quiet.frame]
        exact ⟨rfl, rfl⟩
      exact .takes w id free unblocked ((agree_start_lease _ _ _).trans (.of_slots leases.1)) leases.2
    · exact .takes w id free unblocked (.of_slots (by rw [same]; rfl)) (by rw [same]; rfl)
  | @leave x l expiry slot held granted => exact .leave x.id rfl
  | renew later slot held granted => exact .agrees (agree_on_slot h _ (.granted later) rfl) rfl
  | want => exact .of_leases (want_memory_leases _ _)
  | @wake p tag fresh => exact .of_leases (want_memory_leases h p)
  | commit fresh outside unchanged passes => exact commit_aborts_lease_move _ _ rfl
  | hubReset fresh outside unchanged => exact empties_of_slots (discard_work_slots h) (discard_work_waits h)
  | @placeReply p r rest reply head owner =>
    cases r with
    | entry tag i => exact .agrees (.trans (.of_slots rfl) (agree_freed _ _)) (freed_waits _ _)
    | _ => exact .of_leases rfl
  | @teardown p command =>
    obtain ⟨u, ms, torn, released, _⟩ := teardown_units h p
    have leases : (h.teardown p).leases = (portReleased h p).leases := by rw [torn]; exact released
    refine .scans (portRechecked h p) (fun m stands => (rechecked_standing stands).2) (rechecked_law p) ?_ ?_
    · exact (agree_grants _ _).trans (.of_slots (by rw [leases]; rfl))
    · rw [leases, portReleased, Hub.grantDrained, grants_waits]
  | completeRead command flying kind served => exact (completes_of_read flying served).lease_move
  | completeWrite command flying kind served => exact (completes_of_write flying served).lease_move
  | leavingEnds flying outside leaving unchanged =>
    rw [become_serving_eq]
    exact .of_leases rfl
  | bringupEnds flying inside =>
    rw [end_bringup_eq]
    split <;> exact .of_leases rfl
  | @waitEnds p tag w found =>
    refine .scans (({ h with leases := { h.leases with
      waits := h.leases.waits.filter (fun x => !(x.port == p && x.tag == tag)) } }.defer p
        (.leaseEnd tag .timeout 0))) (.of_slots rfl) id (.of_slots rfl) rfl
  | @grantingEnds p tag id deadline left found => exact .leave id rfl
  | copy command pending idle out => exact commit_aborts_lease_move true _ rfl
  | reset command pending idle out layers => exact empties_of_slots rfl rfl
  | _ => exact .of_leases rfl

theorem LeaseMove.slots_law {h g : Hub} (move : LeaseMove h g) (law : SlotsLaw h) : SlotsLaw g := by
  cases move with
  | agrees slots waits => exact slots.1.slots_law law
  | waits w blocked slots waits => rwa [SlotsLaw, slots]
  | takes w id free unblocked slots waits => exact slots.1.slots_law (occupied_law law id w)
  | scans k before law' slots waits =>
    exact slots.1.slots_law (scan_all_stay (kept := []) k.leases.waits (law' law) fun e w l no => by simp at no).1
  | empties none_left law' waits => exact law' law

/-! ### Waits (R89) -/

theorem wait_law_moves {c : Instr} {h g : Hub} (law : WaitLaw h) (act : Act c h g) : WaitLaw g := by
  rw [wait_law_iff] at law ⊢
  obtain ⟨slots_law, stay⟩ := law
  refine ⟨act.lease_move.slots_law slots_law, ?_⟩
  cases act.lease_move with
  | agrees slots waits => exact waits ▸ stay.later slots.1
  | waits w blocked slots waits =>
    rw [waits]
    refine (all_stay_append stay ?_).later (.of_slots slots)
    rw [blocked_eq, blocked_take_iff, overlaps_waiting_iff] at blocked
    rcases blocked with conflict | taken | overlap
    · exact .inr (.inl conflict)
    · exact .inl taken
    · exact .inr (.inr overlap)
  | takes w id free unblocked slots waits => exact waits ▸ stay.later ((stand_occupied slots_law free).trans slots.1)
  | scans k before law slots waits =>
    rw [waits]
    exact (scan_all_stay (kept := []) k.leases.waits (law slots_law) fun e w l no => by simp at no).2.later slots.1
  | empties none_left law waits =>
    rw [waits]
    exact fun e w l no => by simp at no

theorem wait_law_congr {h g : Hub} (slots : g.leases.slots = h.leases.slots) (waits : g.leases.waits = h.leases.waits)
    (law : WaitLaw h) : WaitLaw g := by
  unfold WaitLaw SlotsLaw Standing at *
  rw [slots, waits]
  exact law

theorem Quiet.slots {h g : Hub} (quiet : Quiet h g) :
    g.leases.slots = h.leases.slots ∧ g.leases.waits = h.leases.waits := by
  rw [quiet.frame]
  exact ⟨rfl, rfl⟩

theorem wait_law_kept : KeptByEveryStep WaitLaw :=
  kept_by_moves (fun quiet => wait_law_congr quiet.slots.1 quiet.slots.2) wait_law_moves
    (fun quiet => wait_law_congr quiet.slots.1 quiet.slots.2) (wait_law_congr (by rw [settle_leases]) (by rw [settle_leases]))
    power_up_wait_law fun n => power_up_wait_law n

/-! ### Leases apart (R80) -/

theorem LeasesApart.before {h g : Hub} (law : LeasesApart h) (before : StoodBefore h g) : LeasesApart g := by
  intro k l standsK standsL other overlap
  obtain ⟨k', stoodK, ownerK, baseK, lengthK, modeK⟩ := before k standsK
  obtain ⟨l', stoodL, ownerL, baseL, lengthL, modeL⟩ := before l standsL
  rw [modeK, modeL]
  rw [ownerK, ownerL] at other
  rw [baseK, lengthK, baseL, lengthL] at overlap
  exact law k' l' stoodK stoodL other overlap

/-- A request that no lease conflicts with occupies a slot. -/
theorem LeasesApart.occupied {h : Hub} (law : LeasesApart h) {w : Waiting} (id : LeaseId)
    (unblocked : someLease h (fun l => l.conflictsWithRequest w.port w.mode w.base w.length) = false) :
    LeasesApart (h.occupySlot id w) := by
  have guarded {l : Lease} (stands : Standing h l) (other : l.owner ≠ w.port)
      (overlap : rangesOverlap l.base l.length w.base w.length = true) : l.mode = .guarded ∧ w.mode = .guarded := by
    by_contra sole
    refine Bool.eq_false_iff.mp unblocked ((some_lease_iff h _).mpr ⟨l, stands, ?_⟩)
    rw [conflicts_with_request_iff]
    refine ⟨other, overlap, ?_⟩
    cases modeL : l.mode <;> cases modeW : w.mode <;> simp_all
  intro k l standsK standsL other overlap
  rcases occupied_standing standsK with rfl | stoodK
  · rcases occupied_standing standsL with rfl | stoodL
    · exact absurd rfl other
    · rw [ranges_overlap_comm] at overlap
      exact (guarded stoodL (Ne.symm other) overlap).symm
  · rcases occupied_standing standsL with rfl | stoodL
    · exact guarded stoodK other overlap
    · exact law k l stoodK stoodL other overlap

theorem LeasesApart.placed {h g : Hub} (law : LeasesApart h) (placed : Placed h g) : LeasesApart g := by
  induction placed with
  | refl => exact law
  | grant id _ ih => exact ih.before (agree_grant _ id).2
  | place id w _ _ _ unblocked ih => exact (ih.occupied id unblocked).before (agree_grant _ id).2

theorem leases_apart_moves {c : Instr} {h g : Hub} (law : LeasesApart h) (act : Act c h g) : LeasesApart g := by
  cases act.lease_move with
  | agrees slots waits => exact law.before slots.2
  | waits w blocked slots waits => exact law.before (.of_slots slots)
  | takes w id free unblocked slots waits =>
    rw [blocked_eq, ← Bool.not_eq_true, blocked_take_iff, not_or] at unblocked
    exact (law.occupied id (Bool.eq_false_iff.mpr unblocked.1)).before slots.2
  | scans k before _ slots waits =>
    obtain ⟨k', left, placed, _, scanned⟩ := scan_placed [] k.leases.waits (.refl (h := k)) fun w inside => inside
    have apart : LeasesApart k.scanWaits := by
      rw [Hub.scanWaits, scanned]
      exact ((law.before before).placed placed).before (.of_slots rfl)
    exact apart.before slots.2
  | empties none_left _ waits => exact fun k l stands => absurd stands (none_left k)

theorem leases_apart_kept : KeptByEveryStep LeasesApart :=
  kept_by_moves (fun quiet law => law.before (.of_slots quiet.slots.1)) leases_apart_moves
    (fun quiet law => law.before (.of_slots quiet.slots.1)) (fun law => law.before (.of_slots (by rw [settle_leases])))
    (fun n k l stands => absurd stands (power_up_stands_none n k)) fun n k l stands => absurd stands (power_up_stands_none n k)

/-- Settles O57, law by law. -/
theorem stepsKeepTheLeasesApartAndTheWaitsBlocked : Obligations.StepsKeepTheLeasesApartAndTheWaitsBlocked :=
  ⟨leases_apart_kept, wait_law_kept⟩

end Sys2Proof.Safety
end

section
/-! SUPPORT. The pending replies of entries, and a proof that the entries agree with the burst in flight and with those
replies. -/

namespace Sys2Proof.Safety

open Sys2Proof.Machine

/-! ### Pending replies of entries -/

/-- The tag and the index of a pending reply of an entry. -/
def entryReply : PendingReply → Option (Byte × Index)
  | .entry t i => some (t, i)
  | _ => none

/-- The pending replies of entries in a list. -/
def entryReplies (rs : List PendingReply) : List (Byte × Index) := rs.filterMap entryReply

theorem entry_replies_mem {rs : List PendingReply} {t : Byte} {i : Index} :
    (t, i) ∈ entryReplies rs ↔ PendingReply.entry t i ∈ rs := by
  rw [entryReplies, List.mem_filterMap]
  constructor
  · rintro ⟨r, inside, same⟩
    cases r <;> cases same
    exact inside
  · exact fun inside => ⟨_, inside, rfl⟩

theorem entry_replies_index (rs : List PendingReply) : rs.filterMap entryIndex = (entryReplies rs).map Prod.snd := by
  rw [entryReplies, List.map_filterMap]
  refine congrArg (rs.filterMap ·) (funext fun r => ?_)
  cases r <;> rfl

theorem entry_replies_append (rs ss : List PendingReply) :
    entryReplies (rs ++ ss) = entryReplies rs ++ entryReplies ss := List.filterMap_append ..

/-- Replies that are not of entries. -/
theorem entry_replies_none {rs : List PendingReply} (others : ∀ r ∈ rs, entryReply r = none) : entryReplies rs = [] :=
  List.filterMap_eq_nil_iff.mpr others

theorem entry_replies_others (rs : List PendingReply) {α : Type} (f : α → PendingReply) (others : ∀ a, entryReply (f a) = none)
    (xs : List α) : entryReplies (rs ++ xs.map f) = entryReplies rs := by
  rw [entry_replies_append, entry_replies_none (rs := xs.map f), List.append_nil]
  intro r inside
  obtain ⟨a, _, rfl⟩ := List.mem_map.mp inside
  exact others a

/-- An ABORTED reply takes the place of the replies of its tag. -/
theorem entry_replies_answered (rs : List PendingReply) (x : Byte × Nat) :
    entryReplies (answered rs x) = (entryReplies rs).filter (fun y => decide (y.1 ≠ x.1)) := by
  have replaced (rs : List PendingReply) :
      entryReplies (rs.map (fun r => if r.tag = x.1 then .aborted x.1 x.2 else r)) =
        (entryReplies rs).filter (fun y => decide (y.1 ≠ x.1)) := by
    rw [entryReplies, List.filterMap_map, entryReplies, List.filter_filterMap]
    refine congrArg (rs.filterMap ·) (funext fun r => ?_)
    simp only [Function.comp]
    cases r with
    | entry t i =>
      by_cases same : t = x.1 <;> simp [PendingReply.tag, entryReply, same, Option.filter]
    | _ =>
      split <;> rfl
  unfold answered
  split
  · exact replaced rs
  · next absent =>
    rw [entry_replies_append, show entryReplies [PendingReply.aborted x.1 x.2] = [] from rfl, List.append_nil]
    refine (List.filter_eq_self.mpr fun y inside => ?_).symm
    rw [decide_eq_true_iff]
    exact fun same => absent (List.any_eq_true.mpr ⟨_, entry_replies_mem.mp inside, beq_iff_eq.mpr same⟩)

theorem entry_replies_all_answered (rs : List PendingReply) (xs : List (Byte × Nat)) :
    entryReplies (xs.foldl answered rs) = (entryReplies rs).filter (fun y => decide (y.1 ∉ xs.map Prod.fst)) := by
  induction xs generalizing rs with
  | nil => exact (List.filter_eq_self.mpr (by simp)).symm
  | cons x xs ih =>
    rw [List.foldl_cons, ih, entry_replies_answered, List.filter_filter]
    refine List.filter_congr fun y _ => ?_
    rw [Bool.eq_iff_iff, Bool.and_eq_true, decide_eq_true_iff, decide_eq_true_iff, decide_eq_true_iff, List.map_cons,
      List.mem_cons, not_or, and_comm]

/-- No pending reply of an entry joins a list. -/
def FewerReplies (h g : Hub) : Prop := ∀ p, (entryReplies (g.layer p).replies).Sublist (entryReplies (h.layer p).replies)

theorem FewerReplies.refl (h : Hub) : FewerReplies h h := fun _ => .refl _

theorem FewerReplies.trans {h k g : Hub} (a : FewerReplies h k) (b : FewerReplies k g) : FewerReplies h g :=
  fun p => (b p).trans (a p)

theorem FewerReplies.after {h k g : Hub} (b : FewerReplies k g) (a : FewerReplies h k) : FewerReplies h g := a.trans b

theorem FewerReplies.of_replies {h g : Hub} (same : ∀ p, (g.layer p).replies = (h.layer p).replies) : FewerReplies h g :=
  fun p => by rw [same p]

theorem FewerReplies.of_messages {h g : Hub} (same : g.messages = h.messages) : FewerReplies h g :=
  .of_replies fun p => by rw [Hub.layer, Hub.layer, same]

/-- Replies of other kinds join the tails. -/
theorem FewerReplies.of_more {h g : Hub} (more : ∀ p, ∃ rs, (g.layer p).replies = (h.layer p).replies ++ rs ∧
    ∀ r ∈ rs, entryReply r = none) : FewerReplies h g := by
  intro p
  obtain ⟨rs, same, others⟩ := more p
  rw [same, entry_replies_append, entry_replies_none others, List.append_nil]

theorem Quiet.replies {h g : Hub} (quiet : Quiet h g) : FewerReplies h g :=
  .of_replies fun p => (quiet.layers p).2.1

theorem fewer_on_messages (h : Hub) (p : Port) {f : MessageLayer → MessageLayer}
    (fewer : ∀ m, (entryReplies (f m).replies).Sublist (entryReplies m.replies)) : FewerReplies h (h.onMessages p f) := by
  intro q
  rw [Hub.onMessages_layer]
  split
  · next own =>
    rw [own]
    exact fewer _
  · exact .refl _

theorem fewer_defer (h : Hub) (p : Port) {r : PendingReply} (other : entryReply r = none) : FewerReplies h (h.defer p r) :=
  fewer_on_messages h p fun m => by
    rw [entry_replies_append, entry_replies_none (rs := [r]) (by simpa using other), List.append_nil]

theorem fewer_add_tag (h : Hub) (p : Port) (tag : Byte) : FewerReplies h (h.addTag p tag) :=
  fewer_on_messages h p fun _ => .refl _

theorem fewer_want (h : Hub) (p : Port) : FewerReplies h (h.wantMemory p) := by
  obtain ⟨c, r, u, same, _⟩ := want_memory_frame h p
  rw [same]
  exact .refl h

theorem fewer_grant (h : Hub) (id : LeaseId) : FewerReplies h (h.grantIfDrained id) := by
  rcases grant_if_drained_cases h id with same | ⟨x, l, duration, _, tag, _, _, _, same⟩
  · rw [same]
    exact .refl h
  · rw [same]
    exact .after (fewer_defer (h.startLease id duration) l.owner (r := .leaseGrant tag ⟨id, x.generation⟩ duration) rfl)
      (.of_messages rfl)

theorem fewer_grants (h : Hub) (ids : List LeaseId) : FewerReplies h (ids.foldl Hub.grantIfDrained h) := by
  induction ids generalizing h with
  | nil => exact .refl h
  | cons id ids ih => exact (fewer_grant h id).trans (ih _)

theorem fewer_placed {h g : Hub} (placed : Placed h g) : FewerReplies h g := by
  induction placed with
  | refl => exact .refl h
  | grant id _ ih => exact ih.trans (fewer_grant _ id)
  | @place k id w _ _ _ _ ih => exact ih.trans (.after (fewer_grant (k.occupySlot id w) id) (.of_messages rfl))

theorem fewer_scan (h : Hub) : FewerReplies h h.scanWaits := by
  obtain ⟨k, left, placed, _, scanned⟩ := scan_placed [] h.leases.waits (.refl (h := h)) fun w inside => inside
  rw [Hub.scanWaits, scanned]
  exact (fewer_placed placed).trans (.of_messages rfl)

theorem fewer_unwatch (m : MessageLayer) (gone : List Index) :
    (entryReplies (m.unwatch gone).replies).Sublist (entryReplies m.replies) := by
  rw [(unwatch_parts m gone).2.1, entry_replies_others]
  exact fun _ => rfl

theorem fewer_removed (h : Hub) (gone : List Index) : FewerReplies h (h.removeEntries gone) := by
  intro p
  rw [remove_entries_eq, release_layer]
  exact fewer_unwatch _ _

theorem fewer_freed (h : Hub) (gone : List Index) : FewerReplies h (h.freeEntries gone) :=
  (fewer_removed h gone).trans (fewer_grants _ _)

theorem fewer_leave (h : Hub) (id : LeaseId) : FewerReplies h (h.leaseLeaves id) :=
  .after (fewer_scan _) (.of_messages rfl)

theorem fewer_served (h : Hub) : FewerReplies h (served h) := by
  refine .of_more fun p => ⟨_, congrArg MessageLayer.replies (served_layer h p), fun r inside => ?_⟩
  obtain ⟨w, _, rfl⟩ := List.mem_map.mp inside
  rfl

theorem fewer_emptied (h : Hub) : FewerReplies h h.emptyLeases := by
  obtain ⟨ms, same, layers⟩ := emptied h
  refine .of_more fun p => ⟨(h.leases.waits.filter (fun w => w.port == p)).map (fun w => PendingReply.leaseEnd w.tag .aborted 0) ++
    (h.leases.slots.filterMap (grantingTag p)).map (fun t => PendingReply.leaseEnd t .aborted 0), ?_, ?_⟩
  · rw [same]
    exact (emptied_parts (layers p)).1.trans (List.append_assoc ..)
  · intro r inside
    rcases List.mem_append.mp inside with waits | leases
    · obtain ⟨w, _, rfl⟩ := List.mem_map.mp waits
      rfl
    · obtain ⟨t, _, rfl⟩ := List.mem_map.mp leases
      rfl

theorem fewer_placed_take (h : Hub) (id : LeaseId) (w : Waiting) : FewerReplies h (h.placeTake id w) := by
  rcases place_take_cases h id w with ⟨_, quiet⟩ | ⟨_, same⟩
  · exact .after quiet.replies (.of_messages rfl)
  · rw [same]
    exact .after (fewer_add_tag _ _ _) (.of_messages rfl)

theorem fewer_teardown (h : Hub) (p : Port) : FewerReplies h (h.teardown p) := by
  have cleared : FewerReplies h (portCleared h p) := by
    intro q
    rw [show (portCleared h p).layer q = if q = p then tornLayer h p else h.layer q from quad_get_set _ _ _ _]
    split
    · exact List.nil_sublist _
    · exact .refl _
  have rechecked : FewerReplies h (portRechecked h p) :=
    cleared.trans ((fewer_removed (portCleared h p) ((freedAt h p).map Entry.index)).trans (.of_messages rfl))
  have released : FewerReplies h (portReleased h p) :=
    rechecked.trans ((fewer_scan (portRechecked h p)).trans (fewer_grants _ _))
  rw [teardown_eq]
  split
  · exact released.trans (.after (quiet_notify_up (tornHub h p) .controlChanged 0xFF).replies (.of_messages rfl))
  · exact released.trans (.of_messages rfl)

theorem fewer_discard (h : Hub) (p : Port) : entryReplies (h.discardWork.layer p).replies = [] := by
  rw [discard_work_layer]
  refine entry_replies_none fun r inside => ?_
  have kept := (List.mem_filter.mp inside).2
  cases r <;> simp_all [PendingReply.discardedByReset, entryReply]

theorem aborted_replies (h : Hub) (p : Port) : entryReplies (h.abortAnswered.layer p).replies =
    (entryReplies (h.layer p).replies).filter (fun y => decide (y.1 ∉ (owedOf h p).map Prod.fst)) := by
  rw [abort_answered_layer]
  exact entry_replies_all_answered _ _

theorem fewer_aborted (h : Hub) : FewerReplies h h.abortAnswered := by
  intro p
  rw [aborted_replies]
  exact List.filter_sublist

/-- A commit's aborts add no pending reply of an entry. -/
theorem fewer_commit_aborts (h : Hub) (abort geometry : Bool) : FewerReplies h (h.commitAborts abort geometry) ∧
    (abort = true → FewerReplies h.abortAnswered (h.commitAborts abort geometry)) := by
  obtain ⟨both, empties, nothing, aborts⟩ := commit_aborts_eq h
  cases abort <;> cases geometry
  · rw [nothing]
    exact ⟨.refl h, fun no => by cases no⟩
  · rw [empties]
    exact ⟨fewer_emptied h, fun no => by cases no⟩
  · rw [aborts]
    exact ⟨(fewer_aborted h).trans (fewer_grants _ _), fun _ => fewer_grants _ _⟩
  · rw [both]
    exact ⟨(fewer_aborted h).trans (fewer_emptied _), fun _ => fewer_emptied _⟩

end Sys2Proof.Safety
end

section
/-! SUPPORT. A proof that every step keeps the entries in agreement with the burst in flight and the pending replies. -/

namespace Sys2Proof.Safety

open Sys2Proof.Machine

/-! ### Entries that are eased -/

theorem flying_of_burst {h : Hub} {x : Burst} {e : Entry} (burst : h.scheduler.burst = some x) (index : e.index = x.entry)
    (active : e.phase = .active) : flying h e = true := by
  simp [flying, burst, index, active]

theorem entry_law_eased {h k g : Hub} {clears : Bool} {gone : List Index} (law : EntryLaw h)
    (eased : Eased h k clears gone h.table g.table) (burst : g.scheduler.burst = h.scheduler.burst)
    (fewer : FewerReplies h g) (stay : ∀ e ∈ h.table, flying h e = true → e.index ∉ gone)
    (answered : ∀ p t i, (t, i) ∈ entryReplies (g.layer p).replies → i ∉ gone) : EntryLaw g where
  indices := by
    rw [IndexLaw, eased.map_eq Entry.index fun eases => eases.index]
    exact law.indices.sublist (List.filter_sublist.map _)
  burst := by
    rw [burst]
    intro x flies
    obtain ⟨e, member, index, active, kind⟩ := law.burst x flies
    obtain ⟨e', inside, eases⟩ := eased.after member (stay e member (flying_of_burst flies index active))
    obtain ⟨⟨index', _, _, kind'⟩, _⟩ := eases.fields
    exact ⟨e', inside, index'.trans index, eases.active.mpr active, kind'.trans kind⟩
  aborting := by
    rw [burst]
    intro e' inside marked
    obtain ⟨e, member, _, eases⟩ := eased.before inside
    rw [eases.active, eases.index]
    rcases eases.mark with same | ⟨flies, _⟩
    · exact law.aborting e member (same ▸ marked)
    · refine ⟨?_, flying_burst flies⟩
      simp only [flying, Bool.and_eq_true, beq_iff_eq] at flies
      exact flies.1
  replies := by
    intro p t i pending
    have listed := entry_replies_mem.mpr pending
    obtain ⟨e, member, index, port, tag, done⟩ := law.replies p t i (entry_replies_mem.mp ((fewer p).subset listed))
    obtain ⟨e', inside, eases⟩ := eased.after member (index ▸ answered p t i listed)
    obtain ⟨⟨index', port', tag', _⟩, _⟩ := eases.fields
    exact ⟨e', inside, index'.trans index, port'.trans port, tag'.trans tag, eases.done.mpr done⟩
  once := by
    intro p
    have once := law.once p
    rw [entry_replies_index] at once ⊢
    exact once.sublist ((fewer p).map _)

/-- Where no entry leaves. -/
theorem entry_law_stays {h k g : Hub} {clears : Bool} (law : EntryLaw h) (eased : Eased h k clears [] h.table g.table)
    (burst : g.scheduler.burst = h.scheduler.burst) (fewer : FewerReplies h g) : EntryLaw g :=
  entry_law_eased law eased burst fewer (fun _ _ _ => List.not_mem_nil) fun _ _ _ _ => List.not_mem_nil

theorem entry_law_same {h g : Hub} (law : EntryLaw h) (table : g.table = h.table)
    (burst : g.scheduler.burst = h.scheduler.burst) (fewer : FewerReplies h g) : EntryLaw g :=
  entry_law_stays (k := h) (clears := false) law (by rw [table]; exact eased_refl ..) burst fewer

theorem entry_law_empty {g : Hub} (table : g.table = []) (free : g.scheduler.burst = none)
    (replies : ∀ p, entryReplies (g.layer p).replies = []) : EntryLaw g where
  indices := by rw [IndexLaw, table]; exact List.nodup_nil
  burst := fun x flies => by rw [free] at flies; cases flies
  aborting := fun e member => by rw [table] at member; cases member
  replies := fun p t i pending => by
    have listed := entry_replies_mem.mpr pending
    rw [replies p] at listed
    cases listed
  once := fun p => by rw [entry_replies_index, replies p]; exact List.nodup_nil

/-! ### Entries that an abort or a reply frees -/

theorem entry_unique {h : Hub} (law : IndexLaw h) {a b : Entry} (inA : a ∈ h.table) (inB : b ∈ h.table)
    (same : a.index = b.index) : a = b := List.inj_on_of_nodup_map law inA inB same

/-- The entry whose burst is in flight is not among those that an abort frees. -/
theorem flying_not_freed {h : Hub} (law : IndexLaw h) {es : List Entry}
    (rests : ∀ e ∈ es, e ∈ h.table ∧ flying h e = false) {e : Entry} (member : e ∈ h.table) (flies : flying h e = true) :
    e.index ∉ es.map Entry.index := by
  intro listed
  obtain ⟨y, inside, same⟩ := List.mem_map.mp listed
  obtain ⟨inTable, rest⟩ := rests y inside
  rw [entry_unique law inTable member same, flies] at rest
  cases rest

theorem freed_rests (h : Hub) : ∀ e ∈ freedOf h, e ∈ h.table ∧ flying h e = false := by
  intro e inside
  obtain ⟨member, rest⟩ := List.mem_filter.mp inside
  exact ⟨member, by simpa using rest⟩

theorem freed_at_rests (h : Hub) (p : Port) : ∀ e ∈ freedAt h p, e ∈ h.table ∧ flying h e = false := by
  intro e inside
  obtain ⟨member, rest⟩ := List.mem_filter.mp inside
  rw [Bool.and_eq_true] at rest
  exact ⟨member, by simpa using rest.2⟩

theorem done_not_flying {h : Hub} {e : Entry} (done : e.phase = .done) : flying h e = false := by
  simp [flying, done]

/-- An entry that is DONE has no aborting mark. -/
theorem done_unmarked {h : Hub} (law : EntryLaw h) {e : Entry} (member : e ∈ h.table) (done : e.phase = .done) :
    e.aborting = none := by
  by_contra marked
  have active := (law.aborting e member marked).1
  rw [done] at active
  cases active

/-- A forced commit's abort answers every entry that is DONE in the place of its reply. -/
theorem aborted_answers_all {h : Hub} (law : EntryLaw h) (p : Port) : entryReplies (h.abortAnswered.layer p).replies = [] := by
  rw [aborted_replies, List.filter_eq_nil_iff]
  rintro ⟨t, i⟩ listed
  obtain ⟨e, member, _, port, tag, done⟩ := law.replies p t i (entry_replies_mem.mp listed)
  have freed : e ∈ (freedOf h).filter (fun x => x.port == p && x.aborting != some .torn) := by
    refine List.mem_filter.mpr ⟨List.mem_filter.mpr ⟨member, by rw [done_not_flying done]; rfl⟩, ?_⟩
    simp [port, done_unmarked law member done]
  rw [decide_eq_true_iff, not_not, owedOf, owedEntries, List.map_append, List.map_map]
  exact List.mem_append_left _ (List.mem_map.mpr ⟨e, freed, tag⟩)

theorem entry_law_commit_aborts {h g : Hub} (law : EntryLaw h) (abort geometry : Bool)
    (table : g.table = (h.commitAborts abort geometry).table) (burst : g.scheduler.burst = h.scheduler.burst)
    (replies : FewerReplies (h.commitAborts abort geometry) g) : EntryLaw g := by
  obtain ⟨fewer, aborted⟩ := fewer_commit_aborts h abort geometry
  refine entry_law_eased law (table ▸ commit_aborts_eased h h abort geometry) burst (fewer.trans replies) ?_ ?_
  · intro e member flies
    unfold abortsFree
    split
    · exact flying_not_freed law.indices (freed_rests h) member flies
    · exact List.not_mem_nil
  · intro p t i listed
    unfold abortsFree
    split
    · next aborts =>
      have inside := ((aborted aborts).trans replies p).subset listed
      rw [aborted_answers_all law] at inside
      cases inside
    · exact List.not_mem_nil

theorem entry_law_discard {h g : Hub} (law : EntryLaw h) (table : g.table = h.discardWork.table)
    (burst : g.scheduler.burst = h.scheduler.burst) (replies : FewerReplies h.discardWork g) : EntryLaw g := by
  refine entry_law_eased law (table ▸ discard_eased h h) burst (fun p => ?_) ?_ ?_
  · exact (replies p).trans (by rw [fewer_discard]; exact List.nil_sublist _)
  · exact fun e member flies => flying_not_freed law.indices (freed_rests h) member flies
  · intro p t i listed
    have inside := (replies p).subset listed
    rw [fewer_discard] at inside
    cases inside

theorem teardown_own_replies (h : Hub) (p : Port) : entryReplies ((h.teardown p).layer p).replies = [] := by
  rw [torn_layer_eq]
  rfl

theorem entry_law_teardown {h : Hub} (law : EntryLaw h) (p : Port) : EntryLaw (h.teardown p) := by
  refine entry_law_eased law (teardown_eased h p) (teardown_lanes h p).burst (fewer_teardown h p) ?_ ?_
  · exact fun e member flies => flying_not_freed law.indices (freed_at_rests h p) member flies
  · intro q t i listed gone
    by_cases own : q = p
    · rw [own, teardown_own_replies] at listed
      cases listed
    · obtain ⟨e, member, index, port, _⟩ := law.replies q t i (entry_replies_mem.mp ((fewer_teardown h p q).subset listed))
      obtain ⟨y, freed, same⟩ := List.mem_map.mp gone
      rw [entry_unique law.indices (freed_at_rests h p y freed).1 member (same.trans index.symm)] at freed
      have mine := (List.mem_filter.mp freed).2
      simp [port, own] at mine

/-- The hub once the head of a pending list has left it, and its tag the tag set. -/
def headGone (h : Hub) (p : Port) (tag : Byte) (rest : List PendingReply) : Hub :=
  h.onMessages p (fun m => { m.dropTags [tag] with replies := rest })

theorem head_gone_replies (h : Hub) (p q : Port) (tag : Byte) (rest : List PendingReply) :
    ((headGone h p tag rest).layer q).replies = if q = p then rest else (h.layer q).replies := by
  rw [headGone, Hub.onMessages_layer]
  split <;> rfl

theorem fewer_head_gone {h : Hub} {p : Port} {r : PendingReply} {rest : List PendingReply}
    (head : (h.layer p).replies = r :: rest) : FewerReplies h (headGone h p r.tag rest) := by
  intro q
  rw [head_gone_replies]
  split
  · next own =>
    rw [own, head]
    exact (List.sublist_cons_self _ _).filterMap _
  · exact .refl _

theorem fewer_placing (h : Hub) (p : Port) (r : PendingReply) : FewerReplies h (h.placed p r) := by
  cases r with
  | entry tag i =>
    exact (fewer_on_messages _ p (f := fun m => { m with completed := rise32 m.completed }) fun _ => .refl _).trans
      (fewer_freed _ _)
  | fence tag => exact .after (.of_messages rfl) (fewer_on_messages h p
      (f := fun m => { m with fences := m.fences.filter (fun f => f.tag != tag) }) fun _ => .refl _)
  | _ => exact .refl h

theorem entry_law_place_entry {h : Hub} (law : EntryLaw h) {p : Port} {tag : Byte} {i : Index} {rest : List PendingReply}
    (head : (h.layer p).replies = .entry tag i :: rest) : EntryLaw ((headGone h p tag rest).placed p (.entry tag i)) := by
  have placed := fewer_placing (headGone h p tag rest) p (.entry tag i)
  obtain ⟨e, member, index, port, _, done⟩ := law.replies p tag i (by rw [head]; exact List.mem_cons_self)
  refine entry_law_eased law (k := h) (gone := [i])
    (freed_eased (g := (headGone h p tag rest).onMessages p (fun m => { m with completed := rise32 m.completed })) [i]
      (List.forall₂_same.mpr fun e _ => .refl ..))
    (work_placed _ p (.entry tag i)).lanes.burst ((fewer_head_gone head).trans placed) ?_ ?_
  · intro z inTable flies own
    rw [entry_unique law.indices inTable member ((List.mem_singleton.mp own).trans index.symm), done_not_flying done] at flies
    cases flies
  · intro q t j listed own
    rw [List.mem_singleton] at own
    subst own
    have inside := (placed q).subset listed
    rw [head_gone_replies] at inside
    by_cases same : q = p
    · rw [if_pos same] at inside
      have once := law.once p
      rw [head, entry_replies_index] at once
      exact (List.nodup_cons.mp once).1 (List.mem_map.mpr ⟨_, inside, rfl⟩)
    · rw [if_neg same] at inside
      obtain ⟨z, inTable, index', port', _⟩ := law.replies q t j (entry_replies_mem.mp inside)
      rw [entry_unique law.indices inTable member (index'.trans index.symm), port] at port'
      exact same port'.symm

/-! ### Admissions and bursts -/

theorem admitted_fields (h : Hub) (p : Port) (kind : Access) (tag : Byte) (words a : Nat) (i : Index) (data : List Word) :
    (admitted h p kind tag words a i data).aborting = none ∧ (admitted h p kind tag words a i data).tag = tag ∧
      (admitted h p kind tag words a i data).kind = kind ∧ (admitted h p kind tag words a i data).addr = a ∧
      (admitted h p kind tag words a i data).words = words := by
  obtain ⟨phase, same⟩ := promote_frame
    { h.newEntry p kind tag words a i data with holds := h.newHolds (h.newEntry p kind tag words a i data) }
  rw [admitted, same]
  exact ⟨rfl, rfl, rfl, rfl, rfl⟩

theorem entry_law_append {h g : Hub} (law : EntryLaw h) {e : Entry} (index : IndexLaw g) (table : g.table = h.table ++ [e])
    (unmarked : e.aborting = none) (burst : g.scheduler.burst = h.scheduler.burst) (fewer : FewerReplies h g) : EntryLaw g where
  indices := index
  burst := by
    rw [burst, table]
    intro x flies
    obtain ⟨y, member, rest⟩ := law.burst x flies
    exact ⟨y, List.mem_append_left _ member, rest⟩
  aborting := by
    rw [burst, table]
    intro y inside marked
    rcases List.mem_append.mp inside with old | new
    · exact law.aborting y old marked
    · rw [List.mem_singleton.mp new] at marked
      exact absurd unmarked marked
  replies := by
    rw [table]
    intro p t i pending
    obtain ⟨y, member, rest⟩ := law.replies p t i (entry_replies_mem.mp ((fewer p).subset (entry_replies_mem.mpr pending)))
    exact ⟨y, List.mem_append_left _ member, rest⟩
  once := by
    intro p
    have once := law.once p
    rw [entry_replies_index] at once ⊢
    exact once.sublist ((fewer p).map _)

theorem Starts.fields {i : Index} {e e' : Entry} (starts : Starts i e e') :
    (e'.index = e.index ∧ e'.port = e.port ∧ e'.tag = e.tag ∧ e'.kind = e.kind) ∧ e'.aborting = e.aborting := by
  rw [starts.frame]
  exact ⟨⟨rfl, rfl, rfl, rfl⟩, rfl⟩

/-- An entry once a burst has started, and the one it was. -/
theorem started_before {i : Index} {t t' : List Entry} (starts : List.Forall₂ (Starts i) t t') {e' : Entry} (inside : e' ∈ t') :
    ∃ e ∈ t, Starts i e e' := by
  induction starts with
  | nil => cases inside
  | @cons a b _ _ pair _ ih =>
    rcases List.mem_cons.mp inside with rfl | later
    · exact ⟨a, List.mem_cons_self, pair⟩
    · obtain ⟨e, member, starts⟩ := ih later
      exact ⟨e, List.mem_cons_of_mem _ member, starts⟩

theorem started_after {i : Index} {t t' : List Entry} (starts : List.Forall₂ (Starts i) t t') {e : Entry} (member : e ∈ t) :
    ∃ e' ∈ t', Starts i e e' := by
  induction starts with
  | nil => cases member
  | @cons a b _ _ pair _ ih =>
    rcases List.mem_cons.mp member with rfl | later
    · exact ⟨b, List.mem_cons_self, pair⟩
    · obtain ⟨e', inside, starts⟩ := ih later
      exact ⟨e', List.mem_cons_of_mem _ inside, starts⟩

theorem entry_law_start {h : Hub} (law : EntryLaw h) {e : Entry} (granted : h.grant = some e) : EntryLaw (h.startBurst e) where
  indices := by
    rw [IndexLaw, Lasting.starts (F := Entry.index) (fun _ _ _ _ _ _ _ _ _ => rfl) (start_burst_table h e)]
    exact law.indices
  burst := by
    intro x flies
    cases (Option.some.inj flies : h.nextBurst e = x)
    obtain ⟨e', inside, starts⟩ := started_after (start_burst_table h e) (granted_to granted).member
    obtain ⟨⟨index, _, _, kind⟩, _⟩ := starts.fields
    exact ⟨e', inside, index, starts.phase.trans (if_pos rfl), kind⟩
  aborting := by
    intro e' inside marked
    obtain ⟨z, member, starts⟩ := started_before (start_burst_table h e) inside
    rw [starts.fields.2] at marked
    obtain ⟨_, x, flies, _⟩ := law.aborting z member marked
    rw [(granted_to granted).free] at flies
    cases flies
  replies := by
    intro p t i pending
    obtain ⟨z, member, index, port, tag, done⟩ := law.replies p t i pending
    obtain ⟨e', inside, starts⟩ := started_after (start_burst_table h e) member
    obtain ⟨⟨index', port', tag', _⟩, _⟩ := starts.fields
    have other : z.index ≠ e.index := by
      intro same
      have servable := (granted_to granted).servable
      rw [servable_iff, ← entry_unique law.indices member (granted_to granted).member same, done] at servable
      rcases servable with no | ⟨no, _⟩ <;> cases no
    exact ⟨e', inside, index'.trans index, port'.trans port, tag'.trans tag, (starts.phase.trans (if_neg other)).trans done⟩
  once := law.once

/-- What the outcome of a burst does to the pending replies of entries. -/
theorem outcome_replies (m : Hub) (i : Index) (f : Entry) : FewerReplies m (burstOutcome m i f) ∨
    (f.aborting = none ∧ f.words ≤ f.wordsDone ∧ ∀ p, entryReplies ((burstOutcome m i f).layer p).replies =
      entryReplies (m.layer p).replies ++ if p = f.port then [(f.tag, i)] else []) := by
  obtain mark | ⟨kind, mark⟩ := Option.eq_none_or_eq_some f.aborting
  · rw [outcome_unmarked m i mark]
    split
    · next all =>
      refine .inr ⟨mark, all, fun p => ?_⟩
      rw [release_layer, (unwatch_parts _ _).2.1, entry_replies_others _ _ fun _ => rfl, defer_layer]
      split
      · next own =>
        subst own
        exact entry_replies_append _ _
      · exact (List.append_nil _).symm
    · split <;> exact .inl (.of_messages rfl)
  · rw [outcome_aborting m i mark]
    refine .inl (FewerReplies.trans ?_ (fewer_freed _ _))
    cases kind with
    | answered =>
      refine .after (fewer_on_messages (entryPut m i f) f.port fun n => ?_) (.of_messages rfl)
      rw [entry_replies_answered]
      exact List.filter_sublist
    | silent => exact .after (fewer_on_messages (entryPut m i f) f.port fun n => .refl _) (.of_messages rfl)
    | torn => exact .of_messages rfl

theorem put_mem {t : List Entry} {i : Index} {f y : Entry} (inside : y ∈ putAt t i f) : y = f ∨ (y ∈ t ∧ y.index ≠ i) := by
  obtain ⟨z, member, rfl⟩ := List.mem_map.mp inside
  by_cases own : z.index = i
  · exact .inl (if_pos own)
  · rw [if_neg own]
    exact .inr ⟨member, own⟩

theorem mem_put {t : List Entry} {i : Index} (f : Entry) {z : Entry} (member : z ∈ t) (other : z.index ≠ i) : z ∈ putAt t i f :=
  List.mem_map.mpr ⟨z, member, if_neg other⟩

theorem put_self {t : List Entry} {e : Entry} (f : Entry) (member : e ∈ t) : f ∈ putAt t e.index f :=
  List.mem_map.mpr ⟨e, member, if_pos rfl⟩

theorem Progress.fields {e f : Entry} (progress : Progress e f) :
    (f.index = e.index ∧ f.port = e.port ∧ f.tag = e.tag ∧ f.kind = e.kind) ∧ f.phase = e.phase ∧ f.aborting = e.aborting := by
  rw [progress]
  exact ⟨⟨rfl, rfl, rfl, rfl⟩, rfl, rfl⟩

theorem outcome_free (m : Hub) (i : Index) (f : Entry) : (burstOutcome m i f).scheduler.burst = none := by
  obtain mark | ⟨kind, mark⟩ := Option.eq_none_or_eq_some f.aborting
  · rw [outcome_unmarked m i mark]
    split
    · rfl
    · split <;> rfl
  · rw [outcome_aborting m i mark]
    exact (work_free _ _).lanes.burst.trans (abort_paid_table m i f kind).2

theorem entry_law_completes {h g : Hub} (law : EntryLaw h) (completes : Completes h g) : EntryLaw g := by
  have indices := (TableMove.completes completes).index_law law.indices
  obtain ⟨x, e, f, d, c, b, burst, found, progress, _, rfl⟩ := completes
  obtain ⟨member, own⟩ := (entry_eq_some_iff law.indices).mp found
  obtain ⟨e0, member0, index0, active, _⟩ := law.burst x burst
  obtain rfl : e0 = e := entry_unique law.indices member0 member (index0.trans own.symm)
  obtain ⟨⟨indexF, portF, tagF, _⟩, phaseF, markF⟩ := progress.fields
  have others {y : Entry} (inside : y ∈ h.table) (other : y.index ≠ e0.index) : y.aborting = none := by
    by_contra marked
    obtain ⟨_, x', burst', own'⟩ := law.aborting y inside marked
    cases Option.some.inj (burst.symm.trans burst')
    exact other (own'.symm.trans own.symm)
  have pendings {p : Port} {t : Byte} {i : Index} (pending : PendingReply.entry t i ∈ (h.layer p).replies) :
      ∃ z ∈ h.table, z.index = i ∧ z.port = p ∧ z.tag = t ∧ z.phase = .done ∧ z.index ≠ e0.index := by
    obtain ⟨z, inside, index, port, tag, done⟩ := law.replies p t i pending
    refine ⟨z, inside, index, port, tag, done, fun same => ?_⟩
    rw [entry_unique law.indices inside member same, active] at done
    cases done
  obtain ⟨X, phase, gone, put, free, eased, phases⟩ := outcome_eased
    { h with dram := d, check := c, scheduler := { h.scheduler with banks := b } } e0.index f
  have replies := outcome_replies { h with dram := d, check := c, scheduler := { h.scheduler with banks := b } } e0.index f
  have lane := outcome_free { h with dram := d, check := c, scheduler := { h.scheduler with banks := b } } e0.index f
  generalize burstOutcome { h with dram := d, check := c, scheduler := { h.scheduler with banks := b } } e0.index f = g at *
  have stays {z : Entry} (inside : z ∈ h.table) (other : z.index ≠ e0.index) : ∃ e' ∈ g.table, Eases X X false z e' := by
    refine eased.after (put ▸ mem_put _ inside other) fun left => ?_
    rcases phases with ⟨_, _, rfl⟩ | ⟨_, rfl, _⟩
    · exact other (List.mem_singleton.mp left)
    · cases left
  refine ⟨indices, fun y flies => (by rw [lane] at flies; cases flies), fun e' inside marked => ?_, fun p t i pending => ?_,
    fun p => ?_⟩
  · obtain ⟨y, before, stay, eases⟩ := eased.before inside
    have marked' : y.aborting ≠ none := by
      rcases eases.mark with same | ⟨flies, _⟩
      · exact same ▸ marked
      · obtain ⟨z, burst', _⟩ := flying_burst flies
        rw [free] at burst'
        cases burst'
    rw [put] at before
    rcases put_mem before with rfl | ⟨inTable, other⟩
    · rcases phases with ⟨_, _, rfl⟩ | ⟨unmarked, _⟩
      · exact absurd (List.mem_singleton.mpr indexF) stay
      · exact absurd unmarked marked'
    · exact absurd (others inTable other) marked'
  · have old (before : PendingReply.entry t i ∈ (h.layer p).replies) :
        ∃ e ∈ g.table, e.index = i ∧ e.port = p ∧ e.tag = t ∧ e.phase = .done := by
      obtain ⟨z, inTable, index, port, tag, done, other⟩ := pendings before
      obtain ⟨e', inside, eases⟩ := stays inTable other
      obtain ⟨⟨index', port', tag', _⟩, _⟩ := eases.fields
      exact ⟨e', inside, index'.trans index, port'.trans port, tag'.trans tag, eases.done.mpr done⟩
    rcases replies with fewer | ⟨unmarked, all, same⟩
    · exact old (entry_replies_mem.mp ((fewer p).subset (entry_replies_mem.mpr pending)))
    · have listed := entry_replies_mem.mpr pending
      rw [same p, List.mem_append] at listed
      rcases listed with before | new
      · exact old (entry_replies_mem.mp before)
      · split at new
        · next port =>
          cases List.mem_singleton.mp new
          rcases phases with ⟨marked, _⟩ | ⟨_, rfl, _, finishes⟩
          · exact absurd unmarked marked
          · obtain rfl := finishes all
            obtain ⟨e', inside, eases⟩ := eased.after (put ▸ put_self _ member) List.not_mem_nil
            obtain ⟨⟨index', port', tag', _⟩, _⟩ := eases.fields
            exact ⟨e', inside, index'.trans indexF, port'.trans port.symm, tag', eases.done.mpr rfl⟩
        · cases new
  · have once := law.once p
    rw [entry_replies_index] at once ⊢
    rcases replies with fewer | ⟨unmarked, all, same⟩
    · exact once.sublist ((fewer p).map _)
    · rw [same p, List.map_append]
      split
      · refine List.nodup_append.mpr ⟨once, List.nodup_singleton _, ?_⟩
        rintro i listed _ new rfl
        obtain ⟨⟨t, j⟩, inside, rfl⟩ := List.mem_map.mp listed
        obtain ⟨z, _, index, _, _, _, other⟩ := pendings (entry_replies_mem.mp inside)
        exact other (index.trans (List.mem_singleton.mp new))
      · rw [List.map_nil, List.append_nil]
        exact once

/-! ### The moves -/

theorem entry_law_moves {c : Instr} {h g : Hub} (law : EntryLaw h) (act : Act c h g) : EntryLaw g := by
  have indices := act.table_move.index_law law.indices
  cases act with
  | @admits p kind tag words reserved addr a i data passes =>
    refine entry_law_append law indices (want_memory_table _ p) (admitted_fields ..).1
      (congrArg Scheduler.burst (want_memory_scheduler _ p) :) ?_
    exact .after (fewer_want _ p) (.after (fewer_add_tag _ p tag) (.of_messages rfl))
  | fence fresh room some =>
    refine entry_law_same law rfl rfl (.after (fewer_add_tag _ _ _) (fewer_on_messages _ _ fun m => .refl _))
  | wait fresh room blocked => exact entry_law_same law rfl rfl (.after (fewer_add_tag _ _ _) (.of_messages rfl))
  | take fresh free unblocked =>
    exact entry_law_same law (place_take_table _ _ _) (work_place_take _ _ _).lanes.burst (fewer_placed_take _ _ _)
  | leave slot held granted =>
    exact entry_law_stays law (leave_eased h _) (work_leave _ _).lanes.burst (fewer_leave h _)
  | @want p => exact entry_law_same law (want_memory_table h p) (congrArg Scheduler.burst (want_memory_scheduler h p) :) (fewer_want h p)
  | @wake p tag fresh =>
    exact entry_law_same law (want_memory_table h p) (congrArg Scheduler.burst (want_memory_scheduler h p) :)
      (.trans (fewer_want h p) (.after (.of_messages rfl) (fewer_add_tag _ p tag)))
  | commit fresh outside unchanged passes =>
    exact entry_law_commit_aborts law _ _ rfl (work_commit_aborts _ _ _).lanes.burst
      (.after (fewer_add_tag _ _ _) (.of_messages rfl))
  | hubReset fresh outside unchanged =>
    exact entry_law_discard law rfl (work_discard h).lanes.burst (.after (fewer_add_tag _ _ _) (.of_messages rfl))
  | @placeReply p r rest reply head owner =>
    have fewer := (fewer_head_gone head).trans (fewer_placing _ p r)
    cases r with
    | entry tag i => exact entry_law_place_entry law head
    | fence tag => exact entry_law_stays law (fence_eased h h p) rfl fewer
    | _ => exact entry_law_same law rfl rfl fewer
  | teardown command => exact entry_law_teardown law _
  | startBurst granted => exact entry_law_start law granted
  | completeRead command flying kind served => exact entry_law_completes law (completes_of_read flying served)
  | completeWrite command flying kind served => exact entry_law_completes law (completes_of_write flying served)
  | leavingEnds flying outside leaving unchanged =>
    rw [become_serving_eq]
    exact entry_law_stays law (served_eased h h) rfl (.after (fewer_served _) (.of_messages rfl))
  | @bringupEnds t r flying inside =>
    have ended : FewerReplies h (served (bringupOver (upkeepPaid h t))) := .after (fewer_served _) (.of_messages rfl)
    have told : FewerReplies h ((served (bringupOver (upkeepPaid h t))).notifyUp .channelState Channel.serving.code) :=
      ended.trans (quiet_notify_up _ _ _).replies
    rw [end_bringup_eq]
    split
    · exact entry_law_stays law (served_eased h h) rfl told
    · exact entry_law_stays law (served_eased h h) rfl (told.trans (fewer_defer _ _ rfl))
  | waitEnds found =>
    exact entry_law_same law (scan_table _) (work_scan _).lanes.burst
      (.after (fewer_scan _) (.after (fewer_defer _ _ rfl) (.of_messages rfl)))
  | grantingEnds found =>
    exact entry_law_stays law (leave_eased h _) (work_leave _ _).lanes.burst ((fewer_leave h _).trans (fewer_defer _ _ rfl))
  | copy command pending idle out =>
    exact entry_law_commit_aborts law true _ rfl (work_commit_aborts _ _ _).lanes.burst (.of_messages rfl)
  | @reset p tag torn ms command pending idle out layers =>
    refine entry_law_empty rfl rfl fun q => ?_
    have layer : (resetHub h ms).layer q = resetLayer h p tag torn q := layers q
    rw [layer]
    refine entry_replies_none fun r inside => ?_
    rcases List.mem_append.mp inside with first | last
    · rcases List.mem_append.mp first with kept | woken
      · have stays := (List.mem_filter.mp kept).2
        cases r <;> simp_all [PendingReply.discardedByReset, entryReply]
      · obtain ⟨w, _, rfl⟩ := List.mem_map.mp woken
        rfl
    · split at last
      · cases List.mem_singleton.mp last
        rfl
      · cases last
  | _ => exact entry_law_same law rfl rfl (.of_messages rfl)

theorem entry_law_quiet {h g : Hub} (quiet : Quiet h g) (law : EntryLaw h) : EntryLaw g :=
  entry_law_same law quiet.table quiet.lanes.burst quiet.replies

/-- The message layers at the end of an event: the deferred WAKEs are answered where it ends ENTERING. -/
theorem settle_layers (h : Hub) : (¬ EnteringEnds h ∧ ∀ p, h.settle.layer p = h.layer p) ∨
    (EnteringEnds h ∧ ∀ p, h.settle.layer p = wokenLayer h p) := by
  have layer (p : Port) : h.settle.layer p = h.evaluateRest.layer p := rfl
  rcases evaluate_cases h with ⟨_, stays, same⟩ | ⟨_, stays, same⟩ | ⟨ends, same⟩
  · exact .inl ⟨stays, fun p => by rw [layer, same]; rfl⟩
  · exact .inl ⟨stays, fun p => by rw [layer, same]; rfl⟩
  · exact .inr ⟨ends, fun p => by rw [layer, same, served_to_layer]⟩

theorem settle_fewer (h : Hub) : FewerReplies h h.settle := by
  rcases settle_layers h with ⟨_, same⟩ | ⟨_, woken⟩
  · exact .of_replies fun p => by rw [same p]
  · refine .of_more fun p => ⟨_, congrArg MessageLayer.replies (woken p), fun r inside => ?_⟩
    obtain ⟨w, _, rfl⟩ := List.mem_map.mp inside
    rfl

theorem entry_law_settle {h : Hub} (law : EntryLaw h) : EntryLaw h.settle := by
  obtain ⟨clears, eased, _⟩ := settle_eased h
  exact entry_law_stays law eased (settle_burst h) (settle_fewer h)

theorem entry_law_kept : KeptByEveryStep EntryLaw :=
  kept_by_moves entry_law_quiet entry_law_moves entry_law_quiet entry_law_settle power_up_entry_law
    fun n => entry_law_same (power_up_entry_law n) rfl rfl (.of_messages rfl)

end Sys2Proof.Safety
end

section
/-! SUPPORT. A proof that every step keeps hazard order (R8, R9, R13, R14). -/

namespace Sys2Proof.Safety

open Sys2Proof.Machine

/-! ### Predecessors (R9) -/

theorem predecessor_cons (x : Entry) (a : List Entry) (e : Entry) : predecessorAmong (x :: a) e =
    (predecessorAmong a e).or (if x.unfinished = true ∧ hazard x e = true then some x.index else none) := by
  unfold predecessorAmong
  by_cases stands : x.unfinished = true ∧ hazard x e = true
  · rw [List.filter_cons_of_pos (by simpa using stands), if_pos stands, List.getLast?_cons]
    cases (a.filter (fun y => y.unfinished && hazard y e)).getLast? <;> rfl
  · rw [List.filter_cons_of_neg (by simpa using stands), if_neg stands, Option.or_none]

theorem predecessor_cons_none {x : Entry} {a : List Entry} {e : Entry} : predecessorAmong (x :: a) e = none ↔
    predecessorAmong a e = none ∧ ¬ (x.unfinished = true ∧ hazard x e = true) := by
  rw [predecessor_cons, Option.or_eq_none_iff, ite_eq_right_iff]
  simp only [reduceCtorEq, imp_false]

/-- Two entries that predecessors do not tell apart. -/
structure Alike (e e' : Entry) : Prop where
  index : e'.index = e.index
  port : e'.port = e.port
  kind : e'.kind = e.kind
  addr : e'.addr = e.addr
  words : e'.words = e.words
  unfinished : e'.unfinished = e.unfinished

theorem Alike.refl (e : Entry) : Alike e e := ⟨rfl, rfl, rfl, rfl, rfl, rfl⟩

theorem Alike.symm {e e' : Entry} (alike : Alike e e') : Alike e' e :=
  ⟨alike.index.symm, alike.port.symm, alike.kind.symm, alike.addr.symm, alike.words.symm, alike.unfinished.symm⟩

theorem Alike.trans {a b c : Entry} (x : Alike a b) (y : Alike b c) : Alike a c :=
  ⟨y.index.trans x.index, y.port.trans x.port, y.kind.trans x.kind, y.addr.trans x.addr, y.words.trans x.words,
    y.unfinished.trans x.unfinished⟩

theorem Eases.alike {h k : Hub} {clears : Bool} {e e' : Entry} (eases : Eases h k clears e e') : Alike e e' := by
  obtain ⟨⟨index, port, _, kind⟩, addr, words, _⟩ := eases.fields
  exact ⟨index, port, kind, addr, words, eases.unfinished⟩

theorem hazard_alike {a a' e e' : Entry} (first : Alike a a') (second : Alike e e') : hazard a' e' = hazard a e := by
  unfold hazard Entry.length
  rw [first.port, first.kind, first.addr, first.words, second.port, second.kind, second.addr, second.words]

theorem predecessor_alike {a a' : List Entry} {e e' : Entry} (aheads : List.Forall₂ Alike a a') (alike : Alike e e') :
    predecessorAmong a' e' = predecessorAmong a e := by
  induction aheads with
  | nil => rfl
  | cons pair _ ih => rw [predecessor_cons, predecessor_cons, ih, pair.index, pair.unfinished, hazard_alike pair alike]

/-! ### A list in order -/

/-- The order of an entry behind others is that of R9, R13 and R14. -/
def OrderOk (ahead : List Entry) (e : Entry) : Prop :=
  (e.phase = .held → e.holds.order = predecessorAmong ahead e) ∧
    (e.phase = .queued ∨ e.phase = .active → predecessorAmong ahead e = none)

/-- Every entry of a list stands in order behind `ahead`. -/
def OrderedFrom (ahead : List Entry) : List Entry → Prop
  | [] => True
  | e :: rest => OrderOk ahead e ∧ OrderedFrom (ahead ++ [e]) rest

theorem ordered_from_iff (ahead es : List Entry) : OrderedFrom ahead es ↔
    ∀ older e newer, es = older ++ e :: newer → OrderOk (ahead ++ older) e := by
  induction es generalizing ahead with
  | nil => exact ⟨fun _ older e newer no => by simp at no, fun _ => trivial⟩
  | cons x es ih =>
    rw [OrderedFrom, ih]
    constructor
    · rintro ⟨first, rest⟩ older e newer split
      rcases List.cons_eq_append_iff.mp split with ⟨rfl, same⟩ | ⟨more, rfl, same⟩
      · cases same
        rw [List.append_nil]
        exact first
      · have later := rest more e newer same
        rwa [List.append_assoc] at later
    · intro all
      refine ⟨?_, fun older e newer split => ?_⟩
      · have first := all [] x es rfl
        rwa [List.append_nil] at first
      · have later := all (x :: older) e newer (by rw [split, List.cons_append])
        rwa [List.append_assoc]

theorem order_law_iff (h : Hub) : OrderLaw h ↔ OrderedFrom [] h.table := by
  rw [ordered_from_iff]
  exact Iff.rfl

/-- The entry leaves HELD at most where it names no predecessor, and else keeps the one it names. -/
structure KeepsOrder (e e' : Entry) : Prop where
  alike : Alike e e'
  held : e'.phase = .held → e.phase = .held ∧ e'.holds.order = e.holds.order
  served : e'.phase = .queued ∨ e'.phase = .active →
    (e.phase = .queued ∨ e.phase = .active) ∨ (e.phase = .held ∧ e.holds.order = none)

theorem KeepsOrder.refl (e : Entry) : KeepsOrder e e := ⟨.refl e, fun held => ⟨held, rfl⟩, fun served => .inl served⟩

/-- An entry that keeps its order, behind entries alike. -/
theorem KeepsOrder.ok {e e' : Entry} (keeps : KeepsOrder e e') {a a' : List Entry} (aheads : List.Forall₂ Alike a a')
    (ok : OrderOk a e) : OrderOk a' e' := by
  have same := predecessor_alike aheads keeps.alike
  refine ⟨fun held => ?_, fun served => ?_⟩
  · obtain ⟨held', order⟩ := keeps.held held
    rw [order, same]
    exact ok.1 held'
  · rw [same]
    rcases keeps.served served with served' | ⟨held', free⟩
    · exact ok.2 served'
    · exact (ok.1 held').symm.trans free

theorem ordered_kept {a a' t t' : List Entry} (aheads : List.Forall₂ Alike a a') (each : List.Forall₂ KeepsOrder t t')
    (ordered : OrderedFrom a t) : OrderedFrom a' t' := by
  induction each generalizing a a' with
  | nil => trivial
  | cons pair _ ih =>
    exact ⟨pair.ok aheads ordered.1, ih (List.rel_append aheads (.cons pair.alike .nil)) ordered.2⟩

theorem order_law_kept_by {h g : Hub} (law : OrderLaw h) (each : List.Forall₂ KeepsOrder h.table g.table) : OrderLaw g := by
  rw [order_law_iff] at law ⊢
  exact ordered_kept .nil each law

/-! ### Entries that leave or finish -/

/-- Of the entries of a list, some of `gone` have left, some of `gone` are finished, and the others keep their order. -/
inductive Drops (gone : List Index) : List Entry → List Entry → Prop
  | nil : Drops gone [] []
  | drop {e : Entry} {t t' : List Entry} (leaves : e.index ∈ gone) : Drops gone t t' → Drops gone (e :: t) t'
  | finish {e e' : Entry} {t t' : List Entry} (leaves : e.index ∈ gone) (done : e'.phase = .done) :
      Drops gone t t' → Drops gone (e :: t) (e' :: t')
  | keep {e e' : Entry} {t t' : List Entry} (keeps : KeepsOrder e e') : Drops gone t t' → Drops gone (e :: t) (e' :: t')

theorem Drops.append {gone : List Index} {t t' u u' : List Entry} (first : Drops gone t t') (second : Drops gone u u') :
    Drops gone (t ++ u) (t' ++ u') := by
  induction first with
  | nil => exact second
  | drop leaves _ ih => exact .drop leaves ih
  | finish leaves done _ ih => exact .finish leaves done ih
  | keep keeps _ ih => exact .keep keeps ih

/-- With no predecessor before, none afterwards. -/
theorem Drops.none {gone : List Index} {a a' : List Entry} (drops : Drops gone a a') {e e' : Entry} (alike : Alike e e')
    (free : predecessorAmong a e = none) : predecessorAmong a' e' = none := by
  induction drops with
  | nil => rfl
  | drop leaves _ ih => exact ih (predecessor_cons_none.mp free).1
  | finish leaves done _ ih =>
    refine predecessor_cons_none.mpr ⟨ih (predecessor_cons_none.mp free).1, fun stands => ?_⟩
    simp [Entry.unfinished, done] at stands
  | keep keeps _ ih =>
    obtain ⟨rest, apart⟩ := predecessor_cons_none.mp free
    refine predecessor_cons_none.mpr ⟨ih rest, ?_⟩
    rwa [keeps.alike.unfinished, hazard_alike keeps.alike alike]

/-- A predecessor that stays is the predecessor still. -/
theorem Drops.some {gone : List Index} {a a' : List Entry} (drops : Drops gone a a') {e e' : Entry} (alike : Alike e e')
    {i : Index} (names : predecessorAmong a e = some i) (stays : i ∉ gone) : predecessorAmong a' e' = some i := by
  have last {x : Entry} {b : List Entry} (named : predecessorAmong (x :: b) e = Option.some i) :
      predecessorAmong b e = Option.some i ∨
        (predecessorAmong b e = Option.none ∧ x.unfinished = true ∧ hazard x e = true ∧ x.index = i) := by
    rw [predecessor_cons] at named
    cases later : predecessorAmong b e with
    | some j =>
      rw [later] at named
      exact .inl named
    | none =>
      rw [later, Option.none_or] at named
      split at named
      · next stands => exact .inr ⟨rfl, stands.1, stands.2, Option.some.inj named⟩
      · cases named
  induction drops with
  | nil => cases names
  | drop leaves _ ih =>
    rcases last names with later | ⟨_, _, _, rfl⟩
    · exact ih later
    · exact absurd leaves stays
  | finish leaves done _ ih =>
    rcases last names with later | ⟨_, _, _, rfl⟩
    · rw [predecessor_cons, ih later]
      rfl
    · exact absurd leaves stays
  | keep keeps drops ih =>
    rcases last names with later | ⟨free, unfinished, inHazard, rfl⟩
    · rw [predecessor_cons, ih later]
      rfl
    · rw [predecessor_cons, drops.none alike free, Option.none_or,
        if_pos ⟨keeps.alike.unfinished.trans unfinished, (hazard_alike keeps.alike alike).trans inHazard⟩, keeps.alike.index]

theorem reordered_alike (gone : List Index) (ahead : List Entry) (e : Entry) : Alike e (reordered gone ahead e) :=
  (eases_reordered (Hub.powerUp 0) (Hub.powerUp 0) gone ahead e).alike

/-- The order of an entry that stays is worked out again where it names one that leaves. -/
theorem reordered_ok {gone : List Index} {a a' : List Entry} (drops : Drops gone a a') {e e' : Entry}
    (keeps : KeepsOrder e e') (ok : OrderOk a e) : OrderOk a' (reordered gone a' e') := by
  have unnamed (served : e'.phase = .queued ∨ e'.phase = .active) : predecessorAmong a' e' = none := by
    rcases keeps.served served with served' | ⟨held, free⟩
    · exact drops.none keeps.alike (ok.2 served')
    · exact drops.none keeps.alike ((ok.1 held).symm.trans free)
  have unchanged (stays : ∀ i, e'.holds.order = some i → i ∉ gone) : OrderOk a' e' := by
    refine ⟨fun held => ?_, unnamed⟩
    obtain ⟨held', order⟩ := keeps.held held
    have names := ok.1 held'
    cases named : predecessorAmong a e with
    | none => rw [order, names, named, drops.none keeps.alike named]
    | some i =>
      rw [named, ← order] at names
      rw [names, drops.some keeps.alike named (stays i names)]
  rw [reordered_eq]
  split
  · next i names =>
    split
    · rcases promote_cases { e' with holds := { e'.holds with order := predecessorAmong a' e' } } with
        ⟨held, empty, promoted⟩ | ⟨_, same⟩
      · rw [promoted]
        simp only [Holds.isEmpty, Bool.and_eq_true, Option.isNone_iff_eq_none] at empty
        exact ⟨fun no => (by cases no), fun _ => empty.1.1.1⟩
      · rw [same]
        exact ⟨fun _ => rfl, unnamed⟩
    · next stays =>
      refine unchanged fun j names' => ?_
      cases names.symm.trans names'
      simpa using stays
  · next none_named => exact unchanged fun i names => by rw [none_named] at names; cases names

theorem reordered_done {gone : List Index} {a' : List Entry} {e' : Entry} (done : e'.phase = .done) :
    OrderOk a' (reordered gone a' e') := by
  have done' := (eases_reordered (Hub.powerUp 0) (Hub.powerUp 0) gone a' e').done.mpr done
  refine ⟨fun held => ?_, fun served => ?_⟩
  · rw [done'] at held
    cases held
  · rw [done'] at served
    rcases served with no | no <;> cases no

/-- Once entries have left or finished, the reordering of what is left stands in order. -/
theorem drops_ordered {gone : List Index} {t t' : List Entry} (drops : Drops gone t t') {a a' a'' : List Entry}
    (aheads : Drops gone a a') (reordered_aheads : List.Forall₂ Alike a' a'') (ordered : OrderedFrom a t) :
    OrderedFrom a'' (reorder gone a' t') := by
  have moved {b b' : List Entry} {x : Entry} (aheads : List.Forall₂ Alike b b') (ok : OrderOk b x) : OrderOk b' x :=
    (KeepsOrder.refl x).ok aheads ok
  induction drops generalizing a a' a'' with
  | nil => trivial
  | @drop e t t' leaves _ ih =>
    have aheads' : Drops gone (a ++ [e]) (a' ++ []) := aheads.append (.drop leaves .nil)
    rw [List.append_nil] at aheads'
    exact ih aheads' reordered_aheads ordered.2
  | @finish e e' t t' leaves done _ ih =>
    rw [reorder_cons]
    exact ⟨moved reordered_aheads (reordered_done done), ih (aheads.append (.finish leaves done .nil))
      (List.rel_append reordered_aheads (.cons (reordered_alike gone a' e') .nil)) ordered.2⟩
  | @keep e e' t t' keeps _ ih =>
    rw [reorder_cons]
    exact ⟨moved reordered_aheads (reordered_ok aheads keeps ordered.1), ih (aheads.append (.keep keeps .nil))
      (List.rel_append reordered_aheads (.cons (reordered_alike gone a' e') .nil)) ordered.2⟩

theorem order_law_drops {h g : Hub} {gone : List Index} {t : List Entry} (law : OrderLaw h) (drops : Drops gone h.table t)
    (table : g.table = reorder gone [] t) : OrderLaw g := by
  rw [order_law_iff] at law ⊢
  rw [table]
  exact drops_ordered drops .nil .nil law

/-! ### What the moves do to the orders -/

theorem keeps_order_promote {e : Entry} {x : Holds} (order : x.order = e.holds.order) :
    KeepsOrder e { e with holds := x }.promote := by
  rcases promote_cases { e with holds := x } with ⟨held, empty, promoted⟩ | ⟨_, same⟩
  · have held' : e.phase = .held := held
    rw [promoted]
    simp only [Holds.isEmpty, Bool.and_eq_true, Option.isNone_iff_eq_none] at empty
    refine ⟨⟨rfl, rfl, rfl, rfl, rfl, ?_⟩, fun no => (by cases no), fun _ => .inr ⟨held', order.symm.trans empty.1.1.1⟩⟩
    simp [Entry.unfinished, held']
  · rw [same]
    exact ⟨⟨rfl, rfl, rfl, rfl, rfl, rfl⟩, fun held => ⟨held, order⟩, fun served => .inl served⟩

/-- Other marks and counts. -/
theorem keeps_order_same {e e' : Entry} (alike : Alike e e') (phase : e'.phase = e.phase) (holds : e'.holds = e.holds) :
    KeepsOrder e e' :=
  ⟨alike, fun held => ⟨phase ▸ held, by rw [holds]⟩, fun served => .inl (phase ▸ served)⟩

theorem keeps_order_served {e e' : Entry} (alike : Alike e e') (before : e.phase = .queued ∨ e.phase = .active)
    (after : e'.phase = .queued ∨ e'.phase = .active) : KeepsOrder e e' := by
  refine ⟨alike, fun held => ?_, fun _ => .inl before⟩
  rw [held] at after
  rcases after with no | no <;> cases no

theorem recheck_keeps_order (g : Hub) : List.Forall₂ KeepsOrder g.table g.recheck.table := by
  obtain ⟨f, same, each⟩ := rechecked_table g
  rw [same]
  refine forall_map (fun e => ?_) _
  rcases each e with ⟨_, _, _, changed⟩ | ⟨_, kept⟩
  · rw [changed]
    exact keeps_order_promote rfl
  · rw [kept]
    exact .refl e

theorem marked_keeps_order (h : Hub) (kind : AbortKind) (e : Entry) : KeepsOrder e (markedOf h kind e) := by
  refine keeps_order_same (eases_marked h h kind e).alike ?_ ?_ <;> unfold markedOf <;> split <;> rfl

theorem torn_keeps_order (h : Hub) (p : Port) (e : Entry) : KeepsOrder e (tornEntry h p e) := by
  refine keeps_order_same (eases_torn h h p e).alike ?_ ?_ <;> unfold tornEntry <;> split <;> rfl

theorem fence_keeps_order (p : Port) (e : Entry) : KeepsOrder e (fenceGone p e) := by
  unfold fenceGone
  split
  · exact keeps_order_promote rfl
  · exact .refl e

/-- Marked entries, of which some leave. -/
theorem drops_filter {gone : List Index} {t u : List Entry} (each : List.Forall₂ KeepsOrder t u) :
    Drops gone t (u.filter (fun e => decide (e.index ∉ gone))) := by
  induction each with
  | nil => exact .nil
  | @cons e e' _ _ pair _ ih =>
    by_cases leaves : e.index ∈ gone
    · rw [List.filter_cons_of_neg (by simp [pair.alike.index, leaves])]
      exact .drop leaves ih
    · rw [List.filter_cons_of_pos (by simp [pair.alike.index, leaves])]
      exact .keep pair ih

theorem removed_order {h g k : Hub} {gone : List Index} (law : OrderLaw h) (each : List.Forall₂ KeepsOrder h.table g.table)
    (table : k.table = (g.removeEntries gone).table) : OrderLaw k := by
  refine order_law_drops (gone := gone) law (drops_filter each) ?_
  rw [table, remove_entries_eq, Hub.release_table]

theorem Starts.keeps_order {i : Index} {e e' : Entry} (starts : Starts i e e')
    (servable : e.index = i → e.phase = .queued ∨ e.phase = .active) : KeepsOrder e e' := by
  have static : e'.index = e.index ∧ e'.port = e.port ∧ e'.kind = e.kind ∧ e'.addr = e.addr ∧ e'.words = e.words ∧
      e'.holds = e.holds := by
    rw [starts.frame]
    exact ⟨rfl, rfl, rfl, rfl, rfl, rfl⟩
  obtain ⟨index, port, kind, addr, words, holds⟩ := static
  by_cases own : e.index = i
  · have phase : e'.phase = .active := starts.phase.trans (if_pos own)
    refine keeps_order_served ⟨index, port, kind, addr, words, ?_⟩ (servable own) (.inr phase)
    rcases servable own with was | was <;> simp [Entry.unfinished, phase, was]
  · have phase : e'.phase = e.phase := starts.phase.trans (if_neg own)
    exact keeps_order_same ⟨index, port, kind, addr, words, by rw [Entry.unfinished, Entry.unfinished, phase]⟩ phase holds

theorem forall_of_mem {α : Type} {R S : α → α → Prop} {xs ys : List α} (related : List.Forall₂ R xs ys)
    (each : ∀ a ∈ xs, ∀ b, R a b → S a b) : List.Forall₂ S xs ys := by
  induction related with
  | nil => exact .nil
  | @cons a b _ _ pair _ ih =>
    exact .cons (each a List.mem_cons_self b pair) (ih fun c inside => each c (List.mem_cons_of_mem _ inside))

theorem Progress.alike {e f : Entry} (progress : Progress e f) {phase : Phase}
    (unfinished : ({ f with phase := phase } : Entry).unfinished = e.unfinished) : Alike e { f with phase := phase } := by
  obtain ⟨⟨index, port, _, kind⟩, _⟩ := progress.fields
  have rest : f.addr = e.addr ∧ f.words = e.words := by
    rw [progress]
    exact ⟨rfl, rfl⟩
  exact ⟨index, port, kind, rest.1, rest.2, unfinished⟩

/-- The entry of a burst that is over, served on. -/
theorem put_keeps_order {t : List Entry} {e f : Entry} (apart : (t.map Entry.index).Nodup) (member : e ∈ t)
    (progress : Progress e f) (active : e.phase = .active) {phase : Phase} (served : phase = .queued ∨ phase = .active) :
    List.Forall₂ KeepsOrder t (putAt t e.index { f with phase := phase }) := by
  rw [putAt, List.forall₂_map_right_iff]
  refine List.forall₂_same.mpr fun z inside => ?_
  split
  · next own =>
    rw [List.inj_on_of_nodup_map apart inside member own]
    refine keeps_order_served (progress.alike ?_) (.inr active) served
    rcases served with rfl | rfl <;> simp [Entry.unfinished, active]
  · exact .refl z

/-- The entry of a burst that is over is DONE. -/
theorem put_drops {t : List Entry} (e f : Entry) : Drops [e.index] t (putAt t e.index { f with phase := .done }) := by
  unfold putAt
  induction t with
  | nil => exact .nil
  | cons z t ih =>
    rw [List.map_cons]
    by_cases own : z.index = e.index
    · rw [if_pos own]
      exact .finish (by rw [own]; exact List.mem_singleton_self _) rfl ih
    · rw [if_neg own]
      exact .keep (.refl z) ih

theorem order_law_completes {h g : Hub} (entries : EntryLaw h) (law : OrderLaw h) (completes : Completes h g) : OrderLaw g := by
  obtain ⟨x, e, f, d, c, b, burst, found, progress, _, rfl⟩ := completes
  obtain ⟨member, own⟩ := (entry_eq_some_iff entries.indices).mp found
  obtain ⟨e0, member0, index0, active, _⟩ := entries.burst x burst
  obtain rfl : e0 = e := entry_unique entries.indices member0 member (index0.trans own.symm)
  obtain ⟨_, phase, _⟩ := progress.fields
  have served {p : Phase} (serves : p = .queued ∨ p = .active) :=
    put_keeps_order entries.indices member progress active (phase := p) serves
  have stays := served (p := f.phase) (.inr (phase.trans active))
  obtain mark | ⟨kind, mark⟩ := Option.eq_none_or_eq_some f.aborting
  · rw [outcome_unmarked _ _ mark]
    split
    · exact order_law_drops law (put_drops e0 f) rfl
    · split
      · exact order_law_kept_by law (served (.inl rfl))
      · exact order_law_kept_by law stays
  · rw [outcome_aborting _ _ mark]
    refine removed_order (g := abortPaid { h with dram := d, check := c, scheduler := { h.scheduler with banks := b } } e0.index f
      kind) (gone := [e0.index]) law ?_ ?_
    · rw [(abort_paid_table _ _ _ _).1]
      exact stays
    · rw [Hub.freeEntries, Hub.grantDrained, grants_table]

theorem admitted_order (h : Hub) (p : Port) (kind : Access) (tag : Byte) (words a : Nat) (i : Index) (data : List Word) :
    OrderOk h.table (admitted h p kind tag words a i data) := by
  have same (e' : Entry) (alike : Alike (h.newEntry p kind tag words a i data) e') :
      predecessorAmong h.table e' = predecessorAmong h.table (h.newEntry p kind tag words a i data) :=
    predecessor_alike (List.forall₂_same.mpr fun e _ => .refl e) alike
  rcases promote_cases { h.newEntry p kind tag words a i data with holds := h.newHolds (h.newEntry p kind tag words a i data) }
    with ⟨_, empty, promoted⟩ | ⟨_, kept⟩
  · rw [admitted, promoted]
    simp only [Holds.isEmpty, Bool.and_eq_true, Option.isNone_iff_eq_none] at empty
    exact ⟨fun no => (by cases no), fun _ => (same _ ⟨rfl, rfl, rfl, rfl, rfl, rfl⟩).trans empty.1.1.1⟩
  · rw [admitted, kept]
    exact ⟨fun _ => (same _ ⟨rfl, rfl, rfl, rfl, rfl, rfl⟩).symm, fun served => by rcases served with no | no <;> cases no⟩

theorem order_law_same {h g : Hub} (law : OrderLaw h) (table : g.table = h.table) : OrderLaw g := by
  rw [OrderLaw, table]
  exact law

theorem order_law_commit_aborts {h g : Hub} (law : OrderLaw h) (abort geometry : Bool)
    (table : g.table = (h.commitAborts abort geometry).table) : OrderLaw g := by
  have aborted {k : Hub} (same : k.table = h.abortAnswered.table) : OrderLaw k := by
    refine removed_order (g := { h with table := h.table.map (markedOf h .answered), messages := quadOf (abortedLayer h) })
      (gone := (freedOf h).map Entry.index) law (forall_map (marked_keeps_order h .answered) _) ?_
    rw [same, abort_answered_eq (m := quadOf (abortedLayer h)) (quad_of_get _)]
  obtain ⟨both, empties, nothing, aborts⟩ := commit_aborts_eq h
  cases abort <;> cases geometry
  · exact order_law_same law (table.trans (by rw [nothing]))
  · exact order_law_same law (table.trans (by rw [empties, empty_leases_table]))
  · exact aborted (table.trans (by rw [aborts, Hub.grantDrained, grants_table]))
  · exact aborted (table.trans (by rw [both, empty_leases_table]))

theorem order_law_served {h g : Hub} (law : OrderLaw h) (table : g.table = h.table.map channelCleared) : OrderLaw g :=
  order_law_kept_by law (by
    rw [table]
    exact forall_map (f := channelCleared)
      (fun e => keeps_order_promote (e := e) (x := { e.holds with channel := false }) rfl) _)

theorem leave_keeps_order (h : Hub) (id : LeaseId) : List.Forall₂ KeepsOrder h.table (h.leaseLeaves id).table := by
  rw [Hub.leaseLeaves, scan_table]
  exact recheck_keeps_order (h.freeSlots (fun x => x.id == id))

theorem order_law_moves {c : Instr} {h g : Hub} (entries : EntryLaw h) (law : OrderLaw h) (act : Act c h g) : OrderLaw g := by
  cases act with
  | @admits p kind tag words reserved addr a i data passes =>
    rw [order_law_iff, ordered_from_iff] at law ⊢
    intro older e newer split
    rw [want_memory_table] at split
    have split' : h.table ++ [admitted h p kind tag words a i data] = older ++ e :: newer := split
    rcases List.append_eq_append_iff.mp split' with ⟨more, rfl, same⟩ | ⟨more, table, same⟩
    · rcases List.cons_eq_append_iff.mp same with ⟨rfl, same⟩ | ⟨rest, rfl, same⟩
      · cases same
        rw [List.append_nil]
        exact admitted_order ..
      · simp at same
    · cases more with
      | nil =>
        cases same
        rw [List.append_nil] at table
        rw [← table]
        exact admitted_order ..
      | cons y more =>
        cases same
        exact law older e more table
  | take fresh free unblocked => exact order_law_same law (place_take_table _ _ _)
  | @leave x l expiry slot held granted =>
    exact order_law_kept_by law (leave_keeps_order h x.id)
  | @want p => exact order_law_same law (want_memory_table h p)
  | @wake p tag fresh => exact order_law_same law (want_memory_table h p)
  | commit fresh outside unchanged passes => exact order_law_commit_aborts law _ _ rfl
  | hubReset fresh outside unchanged =>
    refine removed_order (g := { h with
      table := h.table.map (markedOf h .silent)
      messages := quadOf (discardedLayer h)
      leases := { h.leases with
        slots := h.leases.slots.map (fun (x : LeaseSlot) => { x with lease := none })
        waits := [] } }) (gone := (freedOf h).map Entry.index) law (forall_map (marked_keeps_order h .silent) _) ?_
    rw [← discard_work_eq (m := quadOf (discardedLayer h)) (quad_of_get _)]
    rfl
  | @placeReply p r rest reply head owner =>
    cases r with
    | entry tag i =>
      refine removed_order (g := (headGone h p tag rest).onMessages p (fun m => { m with completed := rise32 m.completed }))
        (gone := [i]) law (List.forall₂_same.mpr fun e _ => .refl e) ?_
      exact grants_table _ _
    | fence tag => exact order_law_kept_by law (forall_map (fence_keeps_order p) _)
    | _ => exact order_law_same law rfl
  | @teardown p command =>
    have freed : OrderLaw (portFreed h p) :=
      removed_order (g := portCleared h p) (gone := (freedAt h p).map Entry.index) law (forall_map (torn_keeps_order h p) _) rfl
    refine order_law_kept_by freed ?_
    rw [teardown_table]
    exact recheck_keeps_order (portFreed h p)
  | @startBurst e granted =>
    refine order_law_kept_by law (forall_of_mem (start_burst_table h e) fun z inside z' starts => starts.keeps_order fun own => ?_)
    have grants := granted_to granted
    rw [entry_unique entries.indices inside grants.member own]
    exact ((servable_iff e).mp grants.servable).imp_right And.left
  | completeRead command flying kind served => exact order_law_completes entries law (completes_of_read flying served)
  | completeWrite command flying kind served => exact order_law_completes entries law (completes_of_write flying served)
  | leavingEnds flying outside leaving unchanged =>
    rw [become_serving_eq]
    exact order_law_served law rfl
  | bringupEnds flying inside =>
    rw [end_bringup_eq]
    split <;> exact order_law_served law rfl
  | waitEnds found => exact order_law_same law (scan_table _)
  | @grantingEnds p tag id deadline left found => exact order_law_kept_by law (leave_keeps_order h id)
  | copy command pending idle out => exact order_law_commit_aborts law true _ rfl
  | reset command pending idle out layers => exact order_law_iff _ |>.mpr trivial
  | _ => exact order_law_same law rfl

theorem order_law_settle {h : Hub} (law : OrderLaw h) : OrderLaw h.settle := by
  obtain ⟨⟨_, table, _⟩, _⟩ := settle_parts h
  rcases evaluate_cases h with ⟨_, _, same⟩ | ⟨_, _, same⟩ | ⟨_, same⟩
  · exact order_law_same law (table.trans (by rw [same]))
  · exact order_law_same law (table.trans (by rw [same]))
  · exact order_law_served law (table.trans (by rw [same]; rfl))

theorem order_law_kept : KeptByEveryStep (fun h => EntryLaw h ∧ OrderLaw h) :=
  kept_by_moves (middle := fun h => EntryLaw h ∧ OrderLaw h)
    (fun quiet law => ⟨entry_law_quiet quiet law.1, order_law_same law.2 quiet.table⟩)
    (fun law act => ⟨entry_law_moves law.1 act, order_law_moves law.1 law.2 act⟩)
    (fun quiet law => ⟨entry_law_quiet quiet law.1, order_law_same law.2 quiet.table⟩)
    (fun law => ⟨entry_law_settle law.1, order_law_settle law.2⟩)
    (fun n => ⟨power_up_entry_law n, power_up_order_law n⟩)
    fun n => ⟨entry_law_same (power_up_entry_law n) rfl rfl (.of_messages rfl), power_up_order_law n⟩

/-! ### Hazards and predecessors (R8, R9) -/

theorem ranges_overlap_iff (a m b n : Nat) : rangesOverlap a m b n = true ↔ a < b + n ∧ b < a + m := by
  simp [rangesOverlap]

/-- Settles O59: the law, and what hazards, unfinished entries and predecessors are. -/
theorem stepsKeepHazardOrder : Obligations.StepsKeepHazardOrder := by
  refine ⟨order_law_kept, fun a m b n overlap posM posN => ?_, fun a m b n x => ?_, fun a b => ⟨?_, ?_⟩,
    fun ahead e => ⟨fun apart => ?_, fun older a younger split unfinished inHazard apart => ?_⟩⟩
  · rw [ranges_overlap_iff] at overlap
    exact ⟨max a b, by omega, by omega, by omega, by omega⟩
  · rw [ranges_overlap_iff]
    omega
  · rw [hazard, Bool.and_eq_true, Bool.and_eq_true, Bool.or_eq_true, beq_iff_eq, beq_iff_eq, beq_iff_eq, and_assoc]
    rfl
  · simp [Entry.unfinished, or_assoc]
  · rw [predecessorAmong, List.filter_eq_nil_iff.mpr (by simpa using apart)]
    rfl
  · have none_younger : younger.filter (fun x => x.unfinished && hazard x e) = [] :=
      List.filter_eq_nil_iff.mpr (by simpa using apart)
    rw [predecessorAmong, split, List.filter_append, List.filter_cons_of_pos (by simp [unfinished, inHazard]), none_younger,
      List.getLast?_append_cons]
    rfl

end Sys2Proof.Safety
end

section
/-! SUPPORT. Proofs that every step keeps what a lease holds and drains, and the statement on them. -/

namespace Sys2Proof.Safety

open Sys2Proof.Machine

/-! ### What a standing lease asks for -/

/-- Every entry that conflicts with a lease is HELD with LEASE, or drains the lease. -/
def GrantAll (h : Hub) : Prop :=
  ∀ l, Standing h l → ∀ e ∈ h.table, l.conflictsWith e.port e.kind e.addr e.length = true →
    (e.phase = .held ∧ e.holds.lease = true) ∨
      ∃ duration deadline drain tag, l.phase = .granting duration deadline drain tag ∧ e.index ∈ drain

/-- Every entry HELD with LEASE conflicts with a lease. -/
def HoldAll (h : Hub) : Prop :=
  ∀ e ∈ h.table, e.phase = .held → e.holds.lease = true →
    ∃ l, Standing h l ∧ l.conflictsWith e.port e.kind e.addr e.length = true

/-- A GRANTING lease drains occupied entries only. -/
def DrainsIn (h : Hub) : Prop :=
  ∀ l, Standing h l → ∀ duration deadline drain tag, l.phase = .granting duration deadline drain tag →
    ∀ i ∈ drain, i ∈ h.table.map Entry.index

/-- A GRANTING lease drains something. -/
def DrainsSome (h : Hub) : Prop :=
  ∀ l, Standing h l → ∀ duration deadline drain tag, l.phase = .granting duration deadline drain tag → drain ≠ []

theorem drain_law_iff (h : Hub) : DrainLaw h ↔ SlotsLaw h ∧ DrainsIn h ∧ DrainsSome h := by
  refine and_congr Iff.rfl ⟨fun law => ⟨fun l stands duration deadline drain tag phase i inside => ?_,
    fun l stands duration deadline drain tag phase => (law l stands duration deadline drain tag phase).1⟩,
    fun law l stands duration deadline drain tag phase => ⟨law.2 l stands duration deadline drain tag phase,
      fun i inside => List.mem_map.mp (law.1 l stands duration deadline drain tag phase i inside)⟩⟩
  exact List.mem_map.mpr ((law l stands duration deadline drain tag phase).2 i inside)

theorem conflicts_same_lease {l m : Lease} (same : SameLease l m) (p : Port) (kind : Access) (addr length : Nat) :
    m.conflictsWith p kind addr length = l.conflictsWith p kind addr length := by
  obtain ⟨owner, base, len, mode⟩ := same
  rw [Lease.conflictsWith, Lease.conflictsWith, owner, base, len, mode]

theorem standing_congr {h g : Hub} (slots : g.leases.slots = h.leases.slots) (l : Lease) : Standing g l ↔ Standing h l := by
  unfold Standing
  rw [slots]

/-! ### Grants -/

theorem slot_known {h : Hub} (law : SlotsLaw h) (id : LeaseId) : ∃ x ∈ h.leases.slots, x.id = id := by
  have inside : id ∈ h.leases.slots.map LeaseSlot.id := by
    rw [show h.leases.slots.map LeaseSlot.id = List.finRange 16 from law]
    exact List.mem_finRange id
  exact List.mem_map.mp inside

/-- A grant changes nothing, or a lease with an empty drain set becomes GRANTED. -/
theorem grant_exact {h : Hub} (law : SlotsLaw h) (id : LeaseId) :
    (h.grantIfDrained id = h ∧ ∀ x ∈ h.leases.slots, x.id = id → ∀ l duration deadline tag, x.lease = some l →
      l.phase ≠ .granting duration deadline [] tag) ∨
    ∃ x ∈ h.leases.slots, ∃ l duration deadline tag, x.id = id ∧ x.lease = some l ∧
      l.phase = .granting duration deadline [] tag ∧ h.grantIfDrained id = granted h x l duration tag := by
  obtain ⟨x, inside, rfl⟩ := slot_known law id
  by_cases drained : ∃ l duration deadline tag, x.lease = some l ∧ l.phase = .granting duration deadline [] tag
  · obtain ⟨l, duration, deadline, tag, held, phase⟩ := drained
    exact .inr ⟨x, inside, l, duration, deadline, tag, rfl, held, phase, grant_drained_slot law inside held phase⟩
  · have undrained : ∀ l duration deadline tag, x.lease = some l → l.phase ≠ .granting duration deadline [] tag :=
      fun l duration deadline tag held phase => drained ⟨l, duration, deadline, tag, held, phase⟩
    refine .inl ⟨grant_undrained_slot law inside undrained, fun y inside' same => ?_⟩
    rw [slot_eq_of_id_eq law inside' inside same]
    exact undrained

/-- A lease after a grant stood before, or is one whose drain set was empty and is GRANTED now. -/
theorem granted_standing {h : Hub} (law : SlotsLaw h) {id : LeaseId} {m : Lease} (stands : Standing (h.grantIfDrained id) m) :
    Standing h m ∨ ∃ l duration deadline tag expiry, Standing h l ∧ l.phase = .granting duration deadline [] tag ∧
      m = { l with phase := .granted expiry } := by
  rcases grant_exact law id with ⟨same, _⟩ | ⟨x, inside, l, duration, deadline, tag, _, held, phase, same⟩
  · rw [same] at stands
    exact .inl stands
  · rw [same] at stands
    obtain ⟨y, slot, held'⟩ := stands
    obtain ⟨z, before, rfl⟩ := List.mem_map.mp slot
    by_cases own : z.id = x.id
    · rw [if_pos own] at held'
      exact .inr ⟨l, duration, deadline, tag, _, ⟨x, inside, held⟩, phase, (Option.some.inj held').symm⟩
    · rw [if_neg own] at held'
      exact .inl ⟨z, before, held'⟩

@[simp] theorem grant_table (h : Hub) (id : LeaseId) : (h.grantIfDrained id).table = h.table := grants_table h [id]

theorem grant_all_grant {h : Hub} (law : SlotsLaw h) (all : GrantAll h) (id : LeaseId) : GrantAll (h.grantIfDrained id) := by
  intro m stands e member conflict
  rw [grant_table] at member
  rcases granted_standing law stands with stood | ⟨l, duration, deadline, tag, expiry, stood, phase, rfl⟩
  · exact all m stood e member conflict
  · rcases all l stood e member conflict with held | ⟨_, _, drain, _, phase', inside⟩
    · exact .inl held
    · cases phase.symm.trans phase'
      cases inside

theorem drains_in_grant {h : Hub} (law : SlotsLaw h) (drains : DrainsIn h) (id : LeaseId) : DrainsIn (h.grantIfDrained id) := by
  intro m stands duration deadline drain tag phase
  rw [grant_table]
  rcases granted_standing law stands with stood | ⟨l, _, _, _, _, _, _, rfl⟩
  · exact drains m stood duration deadline drain tag phase
  · cases phase

theorem hold_all_stand {h g : Hub} (all : HoldAll h) (table : g.table = h.table) (stand : LeasesStand h g) : HoldAll g := by
  intro e member held lease
  rw [table] at member
  obtain ⟨l, stands, conflict⟩ := all e member held lease
  obtain ⟨m, stands', same⟩ := stand l stands
  exact ⟨m, stands', by rw [conflicts_same_lease same]; exact conflict⟩

/-- A slot has no GRANTING lease with an empty drain set. -/
def Undrained (x : LeaseSlot) : Prop :=
  ∀ l duration deadline tag, x.lease = some l → l.phase ≠ .granting duration deadline [] tag

theorem drains_some_iff (h : Hub) : DrainsSome h ↔ ∀ x ∈ h.leases.slots, Undrained x := by
  constructor
  · exact fun all x inside l duration deadline tag held phase => all l ⟨x, inside, held⟩ duration deadline [] tag phase rfl
  · rintro all l ⟨x, inside, held⟩ duration deadline drain tag phase rfl
    exact all x inside l duration deadline tag held phase

/-- A grant at a slot leaves it undrained, and the others as they are. -/
theorem grant_slots {h : Hub} (law : SlotsLaw h) (id : LeaseId) {y : LeaseSlot} (inside : y ∈ (h.grantIfDrained id).leases.slots) :
    Undrained y ∨ (y.id ≠ id ∧ y ∈ h.leases.slots) := by
  rcases grant_exact law id with ⟨same, undrained⟩ | ⟨x, _, l, duration, deadline, tag, own, _, _, same⟩
  · rw [same] at inside
    by_cases at_ : y.id = id
    · exact .inl (undrained y inside at_)
    · exact .inr ⟨at_, inside⟩
  · rw [same] at inside
    obtain ⟨z, before, rfl⟩ := List.mem_map.mp inside
    by_cases here : z.id = x.id
    · rw [if_pos here]
      refine .inl fun m duration' deadline' tag' held phase => ?_
      cases Option.some.inj held
      cases phase
    · rw [if_neg here]
      exact .inr ⟨own ▸ here, before⟩

/-- After the grants of all slots none is drained. -/
theorem grants_drain {h : Hub} (law : SlotsLaw h) (ids : List LeaseId)
    (others : ∀ x ∈ h.leases.slots, x.id ∉ ids → Undrained x) : DrainsSome (ids.foldl Hub.grantIfDrained h) := by
  induction ids generalizing h with
  | nil => exact (drains_some_iff h).mpr fun x inside => others x inside List.not_mem_nil
  | cons id ids ih =>
    refine ih (grant_law law id) fun y inside later => ?_
    rcases grant_slots law id inside with undrained | ⟨other, before⟩
    · exact undrained
    · exact others y before (by simp [other, later])

theorem grant_drained_drains {h : Hub} (law : SlotsLaw h) : DrainsSome h.grantDrained := by
  refine grants_drain law _ fun x inside absent => absurd (List.mem_map_of_mem inside) absent

theorem drains_some_grant {h : Hub} (law : SlotsLaw h) (some_ : DrainsSome h) (id : LeaseId) : DrainsSome (h.grantIfDrained id) :=
  grants_drain law [id] fun x inside _ => (drains_some_iff h).mp some_ x inside

/-! ### A request that occupies a slot -/

theorem drain_of_conflict {t : List Entry} {w : Waiting} {e : Entry} (member : e ∈ t)
    (conflict : (⟨w.port, w.base, w.length, w.mode, .granted 0⟩ : Lease).conflictsWith e.port e.kind e.addr e.length = true) :
    e.index ∈ drainSet t w.port w.mode w.base w.length := by
  simp only [Lease.conflictsWith, Bool.and_eq_true, bne_iff_ne, ne_eq, Bool.or_eq_true, beq_iff_eq] at conflict
  obtain ⟨⟨other, overlap⟩, kind⟩ := conflict
  refine List.mem_map_of_mem (List.mem_filter.mpr ⟨member, ?_⟩)
  simp only [overlap, Bool.true_and, Bool.or_eq_true, Bool.and_eq_true, bne_iff_ne, ne_eq, beq_iff_eq]
  exact .inl ⟨Ne.symm other, kind⟩

theorem grant_all_occupied {h : Hub} (all : GrantAll h) (id : LeaseId) (w : Waiting) : GrantAll (h.occupySlot id w) := by
  intro m stands e member conflict
  rcases occupied_standing stands with rfl | stood
  · exact .inr ⟨_, _, _, _, rfl, drain_of_conflict (w := w) member conflict⟩
  · exact all m stood e member conflict

theorem drains_in_occupied {h : Hub} (drains : DrainsIn h) (id : LeaseId) (w : Waiting) : DrainsIn (h.occupySlot id w) := by
  intro m stands duration deadline drain tag phase i inside
  rcases occupied_standing stands with rfl | stood
  · cases phase
    obtain ⟨e, kept, rfl⟩ := List.mem_map.mp inside
    exact List.mem_map_of_mem (List.mem_filter.mp kept).1
  · exact drains m stood duration deadline drain tag phase i inside

/-- After a placing the slots but the one placed in are as they were, and that one is undrained. -/
theorem placed_drains {h : Hub} (law : SlotsLaw h) (some_ : DrainsSome h) (id : LeaseId) (w : Waiting) :
    DrainsSome ((h.occupySlot id w).grantIfDrained id) := by
  refine grants_drain (occupied_law law id w) [id] fun y inside other => ?_
  obtain ⟨z, before, rfl⟩ := List.mem_map.mp inside
  by_cases own : z.id = id
  · rw [if_pos own] at other
    exact absurd (List.mem_singleton.mpr own) other
  · rw [if_neg own]
    exact (drains_some_iff h).mp some_ z before

theorem placed_keeps {h g : Hub} (law : SlotsLaw h) (placed : Placed h g) : (GrantAll h → GrantAll g) ∧
    (DrainsIn h → DrainsIn g) ∧ (DrainsSome h → DrainsSome g) := by
  induction placed with
  | refl => exact ⟨id, id, id⟩
  | grant id before ih =>
    have law' := before.slots_law law
    exact ⟨fun all => grant_all_grant law' (ih.1 all) id, fun drains => drains_in_grant law' (ih.2.1 drains) id,
      fun some_ => drains_some_grant law' (ih.2.2 some_) id⟩
  | place id w before _ _ _ ih =>
    have law' := before.slots_law law
    exact ⟨fun all => grant_all_grant (occupied_law law' id w) (grant_all_occupied (ih.1 all) id w) id,
      fun drains => drains_in_grant (occupied_law law' id w) (drains_in_occupied (ih.2.1 drains) id w) id,
      fun some_ => placed_drains law' (ih.2.2 some_) id w⟩

/-- What the three conditions look at. -/
theorem conditions_congr {h g : Hub} (slots : g.leases.slots = h.leases.slots) (table : g.table = h.table) :
    (GrantAll h → GrantAll g) ∧ (DrainsIn h → DrainsIn g) ∧ (DrainsSome h → DrainsSome g) ∧ (HoldAll h → HoldAll g) := by
  have same (l : Lease) : Standing g l ↔ Standing h l := standing_congr slots l
  refine ⟨fun all => ?_, fun drains => ?_, fun some_ => ?_, fun all => ?_⟩
  · simp only [GrantAll, same, table]
    exact all
  · simp only [DrainsIn, same, table]
    exact drains
  · simp only [DrainsSome, same]
    exact some_
  · simp only [HoldAll, same, table]
    exact all

theorem scan_keeps {h : Hub} (law : SlotsLaw h) : (GrantAll h → GrantAll h.scanWaits) ∧
    (DrainsIn h → DrainsIn h.scanWaits) ∧ (DrainsSome h → DrainsSome h.scanWaits) ∧ (HoldAll h → HoldAll h.scanWaits) := by
  obtain ⟨k, left, placed, _, scanned⟩ := scan_placed [] h.leases.waits (.refl (h := h)) fun w inside => inside
  have stand := placed.stand law
  obtain ⟨grants, drains, some_⟩ := placed_keeps law placed
  obtain ⟨u, ms, frame, _⟩ := placed.frame
  obtain ⟨a, b, c, d⟩ := conditions_congr (h := k) (g := { k with leases := { k.leases with waits := left } }) rfl rfl
  rw [Hub.scanWaits, scanned]
  exact ⟨fun all => a (grants all), fun all => b (drains all), fun all => c (some_ all),
    fun all => d (hold_all_stand all (by rw [frame]) stand)⟩

end Sys2Proof.Safety
end

section
/-! SUPPORT. What removals, re-checks, grants and bursts keep of the conditions on leases and the entries they hold. -/

namespace Sys2Proof.Safety

open Sys2Proof.Machine

/-! ### Leases that go on draining -/

/-- The lease drains the entry of index `i`. -/
def DrainsIndex (l : Lease) (i : Index) : Prop :=
  ∃ duration deadline drain tag, l.phase = .granting duration deadline drain tag ∧ i ∈ drain

/-- Every lease of `g` is one of `h` and drains what it drained there, but for `gone`. -/
def DrainsOn (gone : List Index) (h g : Hub) : Prop :=
  ∀ m, Standing g m → ∃ l, Standing h l ∧ SameLease l m ∧ ∀ i, i ∉ gone → DrainsIndex l i → DrainsIndex m i

theorem DrainsOn.of_standing {gone : List Index} {h g : Hub} (stood : ∀ m, Standing g m → Standing h m) : DrainsOn gone h g :=
  fun m stands => ⟨m, stood m stands, .refl m, fun _ _ drains => drains⟩

/-- Entries that stay HELD with LEASE, or in the drain set. -/
theorem grant_all_eased {h k g : Hub} {clears : Bool} {gone : List Index} (all : GrantAll h)
    (eased : Eased h k clears gone h.table g.table) (drains : DrainsOn gone h g)
    (leased : ∀ m, Standing g m → ∃ l, Standing k l ∧ SameLease l m) : GrantAll g := by
  intro m stands e' member conflict
  obtain ⟨e, inTable, stays, eases⟩ := eased.before member
  obtain ⟨⟨index, port, _, kind⟩, addr, words, _⟩ := eases.fields
  rw [Entry.length, port, kind, addr, words] at conflict
  obtain ⟨l, stood, same, on⟩ := drains m stands
  have conflicted : l.conflictsWith e.port e.kind e.addr e.length = true := (conflicts_same_lease same ..).symm.trans conflict
  rcases all l stood e inTable conflicted with ⟨held, lease⟩ | drained
  · have lease' : e'.holds.lease = true := by
      rcases eases.lease with kept | ⟨_, free⟩
      · exact kept.trans lease
      · obtain ⟨n, stands', same'⟩ := leased m stands
        have conflicted' := (conflicts_same_lease same' ..).symm.trans conflict
        rw [show n.conflictsWith e.port e.kind e.addr (e.words * 8) = false from free n stands'] at conflicted'
        cases conflicted'
    rcases eases.phase with kept | ⟨_, _, off, _⟩
    · exact .inl ⟨kept.trans held, lease'⟩
    · rw [lease'] at off
      cases off
  · exact .inr (index ▸ on e.index stays drained)

theorem indices_eased {h k : Hub} {clears : Bool} {gone : List Index} {t t' : List Entry} (eased : Eased h k clears gone t t') :
    t'.map Entry.index = (t.map Entry.index).filter (fun i => decide (i ∉ gone)) := by
  rw [eased.map_eq Entry.index Eases.index, List.filter_map]
  rfl

theorem hold_all_eased {h k g : Hub} {clears : Bool} {gone : List Index} (all : HoldAll h)
    (eased : Eased h k clears gone h.table g.table) (stand : LeasesStand h g) : HoldAll g := by
  intro e' member held lease
  obtain ⟨e, inTable, _, eases⟩ := eased.before member
  obtain ⟨⟨_, port, _, kind⟩, addr, words, _⟩ := eases.fields
  rw [Entry.length, port, kind, addr, words]
  have held' : e.phase = .held := by
    rcases eases.phase with kept | ⟨before, _⟩
    · exact kept.symm.trans held
    · exact before
  have lease' : e.holds.lease = true := by
    rcases eases.lease with kept | ⟨off, _⟩
    · exact kept.symm.trans lease
    · rw [lease] at off
      cases off
  obtain ⟨l, stands, conflict⟩ := all e inTable held' lease'
  obtain ⟨m, stands', same⟩ := stand l stands
  exact ⟨m, stands', (conflicts_same_lease same ..).trans conflict⟩

/-! ### Slots freed, entries re-checked, entries removed -/

theorem freed_slot_stood {h : Hub} {c : LeaseSlot → Bool} {m : Lease} (stands : Standing (h.freeSlots c) m) : Standing h m := by
  obtain ⟨y, inside, held⟩ := stands
  obtain ⟨x, before, rfl⟩ := List.mem_map.mp inside
  split at held
  · cases held
  · exact ⟨x, before, held⟩

theorem recheck_eased (h : Hub) : Eased h h false [] h.table h.recheck.table := eased_all _ _ _ (eases_recheck h h)

theorem grant_all_recheck {h : Hub} (all : GrantAll h) : GrantAll h.recheck :=
  grant_all_eased all (recheck_eased h) (.of_standing fun _ stands => stands) fun m stands => ⟨m, stands, .refl m⟩

theorem drains_in_eased {h k g : Hub} {clears : Bool} (drains : DrainsIn h) (eased : Eased h k clears [] h.table g.table)
    (stood : ∀ m, Standing g m → Standing h m) : DrainsIn g := by
  intro m stands duration deadline drain tag phase i inside
  rw [indices_eased eased]
  exact List.mem_filter.mpr ⟨drains m (stood m stands) duration deadline drain tag phase i inside, by simp⟩

/-- After a re-check every entry HELD with LEASE conflicts with a lease (R88). -/
theorem hold_all_recheck (h : Hub) : HoldAll h.recheck := by
  obtain ⟨f, same, each⟩ := rechecked_table h
  intro e' member held lease
  rw [same] at member
  obtain ⟨e, _, rfl⟩ := List.mem_map.mp member
  rcases each e with ⟨_, _, _, changed⟩ | ⟨stays, kept⟩
  · rw [changed] at lease
    rcases promote_cases { e with holds := { e.holds with lease := false } } with ⟨_, _, promoted⟩ | ⟨_, unpromoted⟩
    · rw [promoted] at lease
      cases lease
    · rw [unpromoted] at lease
      cases lease
  · rw [kept] at held lease ⊢
    have leased : ¬ Unleased h e := fun free => stays ⟨held, lease, free⟩
    unfold Unleased at leased
    push Not at leased
    obtain ⟨l, stands, conflict⟩ := leased
    exact ⟨l, stands, by simpa using conflict⟩

theorem without_lease {gone : List Index} {x : LeaseSlot} {m : Lease} (held : (slotWithout gone x).lease = some m) :
    ∃ l, x.lease = some l ∧ SameLease l m ∧ (∀ i, i ∉ gone → DrainsIndex l i → DrainsIndex m i) ∧
      ∀ i, DrainsIndex m i → i ∉ gone ∧ DrainsIndex l i := by
  obtain ⟨l, lease, rfl⟩ := Option.map_eq_some_iff.mp held
  cases phase : l.phase with
  | granted t => exact ⟨l, lease, .refl l, fun _ _ drains => drains, fun i ⟨_, _, _, _, no, _⟩ => by rw [phase] at no; cases no⟩
  | granting duration deadline drain tag =>
    refine ⟨l, lease, ⟨rfl, rfl, rfl, rfl⟩, fun i stays ⟨_, _, _, _, phase', inside⟩ => ?_, fun i ⟨_, _, _, _, phase', inside⟩ => ?_⟩
    · cases phase.symm.trans phase'
      exact ⟨_, _, _, _, rfl, List.mem_filter.mpr ⟨inside, by simpa using stays⟩⟩
    · cases phase'
      obtain ⟨before, stays⟩ := List.mem_filter.mp inside
      exact ⟨by simpa using stays, _, _, _, _, phase, before⟩

theorem removed_stood {h : Hub} {gone : List Index} {m : Lease} (stands : Standing (h.removeEntries gone) m) :
    ∃ l, Standing h l ∧ SameLease l m ∧ (∀ i, i ∉ gone → DrainsIndex l i → DrainsIndex m i) ∧
      ∀ i, DrainsIndex m i → i ∉ gone ∧ DrainsIndex l i := by
  obtain ⟨y, inside, held⟩ := stands
  rw [remove_entries_eq, Hub.release_leases] at inside
  obtain ⟨x, before, rfl⟩ := List.mem_map.mp inside
  obtain ⟨l, lease, rest⟩ := without_lease held
  exact ⟨l, ⟨x, before, lease⟩, rest⟩

theorem removed_self_eased (h : Hub) (gone : List Index) : Eased h h false gone h.table (h.removeEntries gone).table :=
  removed_eased (h := h) (k := h) gone (List.forall₂_same.mpr fun _ _ => .refl ..)

theorem grant_all_removed {h : Hub} (all : GrantAll h) (gone : List Index) : GrantAll (h.removeEntries gone) := by
  refine grant_all_eased all (removed_self_eased h gone) (fun m stands => ?_) fun m stands => ?_
  · obtain ⟨l, stood, same, on, _⟩ := removed_stood stands
    exact ⟨l, stood, same, on⟩
  · obtain ⟨l, stood, same, _⟩ := removed_stood stands
    exact ⟨l, stood, same⟩

theorem drains_in_removed {h : Hub} (drains : DrainsIn h) (gone : List Index) : DrainsIn (h.removeEntries gone) := by
  intro m stands duration deadline drain tag phase i inside
  obtain ⟨l, stood, _, _, before⟩ := removed_stood stands
  obtain ⟨stays, duration', deadline', drain', tag', phase', inside'⟩ := before i ⟨_, _, _, _, phase, inside⟩
  rw [indices_eased (removed_self_eased h gone)]
  exact List.mem_filter.mpr ⟨drains l stood duration' deadline' drain' tag' phase' i inside', by simpa using stays⟩

/-! ### What a change keeps -/

/-- The change keeps the conditions, that on the standing leases under `c`. -/
structure Keeps (c : Prop) (h g : Hub) : Prop where
  grants : c → GrantAll h → GrantAll g
  drains : DrainsIn h → DrainsIn g
  nonempty : DrainsSome h → DrainsSome g
  holds : HoldAll h → HoldAll g

theorem Keeps.trans {c : Prop} {h k g : Hub} (a : Keeps c h k) (b : Keeps c k g) : Keeps c h g :=
  ⟨fun yes all => b.grants yes (a.grants yes all), fun drains => b.drains (a.drains drains),
    fun some_ => b.nonempty (a.nonempty some_), fun all => b.holds (a.holds all)⟩

/-- The later change first, so that the hub between is known from it. -/
theorem Keeps.after {c : Prop} {h k g : Hub} (b : Keeps c k g) (a : Keeps c h k) : Keeps c h g := a.trans b

theorem Keeps.same {c : Prop} {h g : Hub} (slots : g.leases.slots = h.leases.slots) (table : g.table = h.table) :
    Keeps c h g := by
  obtain ⟨grants, drains, some_, holds⟩ := conditions_congr slots table
  exact ⟨fun _ => grants, drains, some_, holds⟩

/-- Entries that are eased beside leases that stand as they are. -/
theorem Keeps.eased {c : Prop} {h g : Hub} {clears : Bool} (slots : g.leases.slots = h.leases.slots)
    (eased : Eased h h clears [] h.table g.table) : Keeps c h g where
  grants _ all := grant_all_eased all eased (.of_standing fun l => (standing_congr slots l).mp)
    fun m stands => ⟨m, (standing_congr slots m).mp stands, .refl m⟩
  drains drains := drains_in_eased drains eased fun l => (standing_congr slots l).mp
  nonempty some_ l stands := some_ l ((standing_congr slots l).mp stands)
  holds all := hold_all_eased all eased fun l stands => ⟨l, (standing_congr slots l).mpr stands, .refl l⟩

theorem grants_keep {c : Prop} {h : Hub} (law : SlotsLaw h) (ids : List LeaseId) :
    Keeps c h (ids.foldl Hub.grantIfDrained h) := by
  obtain ⟨grants, drains, some_⟩ := placed_keeps law (grants_placed ids .refl)
  exact ⟨fun _ => grants, drains, some_, fun all => hold_all_stand all (grants_table h ids) (agree_grants h ids).1.leases_stand⟩

theorem Keeps.scan {c : Prop} {h : Hub} (law : SlotsLaw h) : Keeps c h h.scanWaits := by
  obtain ⟨grants, drains, some_, holds⟩ := scan_keeps law
  exact ⟨fun _ => grants, drains, some_, holds⟩

/-- Entries that are freed, and the grants of what this drains. -/
theorem Keeps.freed {c : Prop} {h : Hub} (law : SlotsLaw h) (gone : List Index) : Keeps c h (h.freeEntries gone) := by
  have law' := (agree_removed h gone).1.slots_law law
  have granted : Keeps c (h.removeEntries gone) (h.freeEntries gone) := grants_keep law' _
  exact ⟨fun yes all => granted.grants yes (grant_all_removed all gone), fun drains => granted.drains (drains_in_removed drains gone),
    fun _ => grant_drained_drains law', fun all => granted.holds
      (hold_all_eased all (removed_self_eased h gone) (agree_removed h gone).1.leases_stand)⟩

/-- A lease that leaves. -/
theorem Keeps.leave {c : Prop} {h : Hub} (law : SlotsLaw h) (id : LeaseId) : Keeps c h (h.leaseLeaves id) := by
  have law' : SlotsLaw (h.freeSlots (fun x => x.id == id)) := freed_slots_law _ law
  have stood (m : Lease) (stands : Standing (h.freeSlots (fun x => x.id == id)) m) : Standing h m := freed_slot_stood stands
  have freed : Keeps c h (h.freeSlots (fun x => x.id == id)).recheck :=
    ⟨fun _ all => grant_all_recheck fun l stands => all l (stood l stands),
      fun drains => drains_in_eased (h := h.freeSlots (fun x => x.id == id)) (fun l stands => drains l (stood l stands)) (recheck_eased _)
        fun _ stands => stands,
      fun some_ l stands => some_ l (stood l stands), fun _ => hold_all_recheck _⟩
  exact .after (.scan law') freed

/-- With no lease left and no entry HELD with LEASE. -/
theorem Keeps.empties {c : Prop} {h g : Hub} (none_left : ∀ m, ¬ Standing g m)
    (unheld : ∀ e ∈ g.table, e.phase = .held → e.holds.lease = true → False) : Keeps c h g :=
  ⟨fun _ _ l stands => absurd stands (none_left l), fun _ l stands => absurd stands (none_left l),
    fun _ l stands => absurd stands (none_left l), fun _ e member held lease => absurd lease fun yes => unheld e member held yes⟩

end Sys2Proof.Safety
end

section
/-! SUPPORT. A proof that every step keeps what a lease holds and drains (R77, R82 to R84, R88). -/

namespace Sys2Proof.Safety

open Sys2Proof.Machine

/-! ### Aborts, teardowns and the discarding of work -/

/-- Entries that are marked, some of which are freed. -/
theorem Keeps.freed_marked {c : Prop} {h g : Hub} {gone : List Index} (law : SlotsLaw h) (slots : g.leases.slots = h.leases.slots)
    (marked : List.Forall₂ (Eases h h false) h.table g.table) : Keeps c h (g.freeEntries gone) :=
  .after (.freed (by rwa [SlotsLaw, slots]) gone) (.eased slots (eased_all _ _ _ marked))

theorem aborted_flies {h : Hub} {e : Entry} (left : e ∈ h.abortAnswered.table) : e.phase = .active := by
  obtain ⟨z, inTable, stays, eases⟩ := (abort_answered_eased h h).before left
  refine eases.active.mpr (by_contra fun rests => stays (List.mem_map_of_mem (List.mem_filter.mpr ⟨inTable, ?_⟩)))
  simp [flying, rests]

theorem discarded_flies {h : Hub} {e : Entry} (left : e ∈ h.discardWork.table) : e.phase = .active := by
  obtain ⟨z, inTable, stays, eases⟩ := (discard_eased h h).before left
  refine eases.active.mpr (by_contra fun rests => stays (List.mem_map_of_mem (List.mem_filter.mpr ⟨inTable, ?_⟩)))
  simp [flying, rests]

theorem none_emptied {h g : Hub} (slots : g.leases.slots = h.leases.slots.map (fun (x : LeaseSlot) => { x with lease := none }))
    (m : Lease) : ¬ Standing g m := by
  rintro ⟨x, inside, held⟩
  rw [slots] at inside
  obtain ⟨y, _, rfl⟩ := List.mem_map.mp inside
  cases held

theorem empty_leases_none (h : Hub) (m : Lease) : ¬ Standing h.emptyLeases m := by
  obtain ⟨ms, same, _⟩ := emptied h
  exact none_emptied (by rw [same]; rfl) m

/-- The aborts of a commit; one that aborts nothing finds the table empty. -/
theorem Keeps.commit_aborts {c : Prop} {h : Hub} (law : SlotsLaw h) {abort : Bool} (geometry : Bool)
    (idle : abort = false → h.table = []) : Keeps c h (h.commitAborts abort geometry) := by
  obtain ⟨both, empties, nothing, aborts⟩ := commit_aborts_eq h
  cases abort <;> cases geometry
  · rw [nothing]
    exact .same rfl rfl
  · rw [empties]
    refine .empties (empty_leases_none h) fun e member => ?_
    rw [empty_leases_table, idle rfl] at member
    cases member
  · rw [aborts, abort_answered_eq (m := quadOf (abortedLayer h)) (quad_of_get _)]
    exact .freed_marked (g := { h with table := h.table.map (markedOf h .answered), messages := quadOf (abortedLayer h) })
      law rfl (forall_map (eases_marked h h .answered) _)
  · rw [both]
    refine .empties (empty_leases_none _) fun e member held _ => ?_
    rw [empty_leases_table] at member
    rw [aborted_flies member] at held
    cases held

theorem commit_idle {h : Hub} {force : Bool} (passes : h.crossCheck force = none) (aborts : force = false) : h.table = [] := by
  by_contra busy
  unfold Hub.crossCheck at passes
  dsimp only at passes
  split_ifs at passes with _ _ _ full
  · split at passes <;> cases passes
  · exact full ⟨busy, aborts⟩

theorem cleared_stood {h : Hub} {p : Port} {m : Lease} (stands : Standing (portCleared h p) m) : Standing h m := by
  obtain ⟨y, inside, held⟩ := stands
  obtain ⟨x, before, rfl⟩ := List.mem_map.mp inside
  split at held
  · cases held
  · exact ⟨x, before, held⟩

theorem cleared_law {h : Hub} (p : Port) (law : SlotsLaw h) : SlotsLaw (portCleared h p) := by
  refine Eq.trans ?_ law
  rw [show (portCleared h p).leases.slots = h.leases.slots.map _ from rfl, List.map_map]
  refine List.map_congr_left fun x _ => ?_
  simp only [Function.comp]
  split <;> rfl

theorem Keeps.teardown {c : Prop} {h : Hub} (law : SlotsLaw h) (p : Port) : Keeps c h (h.teardown p) := by
  obtain ⟨u, ms, torn, released, _⟩ := teardown_units h p
  have table : (portReleased h p).table = (portRechecked h p).table := (grants_table _ _).trans (scan_table _)
  have same : Keeps c (portReleased h p) (h.teardown p) := .same (by rw [torn]; exact congrArg LeaseUnit.slots released)
    (by rw [torn]; exact table.symm)
  have law' := rechecked_law p law
  have law'' : SlotsLaw (portRechecked h p).scanWaits := by
    refine (scan_all_stay (kept := []) (portRechecked h p).leases.waits law' fun e w l no => by simp at no).1
  have scanned : Keeps c (portRechecked h p) (portReleased h p) := (grants_keep law'' _).after (.scan law')
  have torn_eased : Eased h h false [] h.table (portCleared h p).table := eased_all _ _ _ (forall_map (eases_torn h h p) _)
  have grants (all : GrantAll h) : GrantAll (portCleared h p) := grant_all_eased all torn_eased (.of_standing fun _ => cleared_stood)
    fun m stands => ⟨m, cleared_stood stands, .refl m⟩
  have drains (drains : DrainsIn h) : DrainsIn (portCleared h p) := drains_in_eased drains torn_eased fun _ => cleared_stood
  refine .after same ⟨fun yes all => scanned.grants yes (grant_all_recheck (grant_all_removed (grants all) _)),
    fun ins => scanned.drains ?_, fun _ => grant_drained_drains law'', fun _ => scanned.holds (hold_all_recheck _)⟩
  exact drains_in_eased (drains_in_removed (drains ins) _) (recheck_eased _) fun _ stands => stands

/-! ### Requests -/

/-- At the taking of a lease request that is not blocked the slots change as at its placing. -/
theorem take_slots {h : Hub} (law : SlotsLaw h) {id : LeaseId} (w : Waiting) :
    (h.placeTake id w).leases.slots = ((h.occupySlot id w).grantIfDrained id).leases.slots := by
  have law' := occupied_law law id w
  obtain ⟨y, before, rfl⟩ := slot_known law id
  have placed : (⟨y.id, y.generation + 1, some ⟨w.port, w.base, w.length, w.mode,
      .granting w.duration w.deadline (drainOf h w) w.tag⟩⟩ : LeaseSlot) ∈ (h.occupySlot y.id w).leases.slots :=
    List.mem_map.mpr ⟨y, before, if_pos rfl⟩
  rcases place_take_cases h y.id w with ⟨drained, quiet⟩ | ⟨undrained, same⟩
  · have found := slot_of_mem law' placed
    rw [show drainOf h w = [] from drained] at found
    rw [quiet.slots.1]
    unfold Hub.grantIfDrained
    rw [found]
    rfl
  · rw [same, grant_undrained_slot law' placed]
    · rfl
    · intro l duration deadline tag held phase
      cases Option.some.inj held
      exact undrained (LeasePhase.granting.inj phase).2.2.1

theorem Keeps.take {c : Prop} {h : Hub} (law : SlotsLaw h) {id : LeaseId} (w : Waiting) (free : h.freeSlot = some id) :
    Keeps c h (h.placeTake id w) := by
  have law' := occupied_law law id w
  have table := place_take_table h id w
  refine .after (.same (take_slots law w) (table.trans (grant_table (h.occupySlot id w) id).symm)) ⟨fun _ all => ?_, fun drains => ?_, fun some_ => ?_, fun all => ?_⟩
  · exact grant_all_grant law' (grant_all_occupied all id w) id
  · exact drains_in_grant law' (drains_in_occupied drains id w) id
  · exact placed_drains law some_ id w
  · exact hold_all_stand all (grant_table _ _) ((occupied_stands law free).trans (grant_stands _ id))

/-- A lease whose expiry is put off. -/
theorem Keeps.renew {c : Prop} {h : Hub} (law : SlotsLaw h) {x : LeaseSlot} {l : Lease} {expiry later : Nat}
    (slot : x ∈ h.leases.slots) (held : x.lease = some l) (granted : l.phase = .granted expiry) :
    Keeps c h { h with leases := h.leases.onSlot x.id (fun s =>
      { s with lease := s.lease.map (fun l => { l with phase := .granted later }) }) } := by
  have stood {m : Lease} (stands : Standing { h with leases := h.leases.onSlot x.id (fun s =>
      { s with lease := s.lease.map (fun l => { l with phase := .granted later }) }) } m) :
      Standing h m ∨ m = { l with phase := .granted later } := by
    obtain ⟨z, inside, held'⟩ := stands
    obtain ⟨y, before, rfl⟩ := List.mem_map.mp inside
    split at held'
    · next own =>
      rw [slot_eq_of_id_eq law before slot own] at held'
      exact .inr (Option.some.inj ((congrArg (Option.map _) held).symm.trans held')).symm
    · exact .inl ⟨y, before, held'⟩
  have undrained (i : Index) : ¬ DrainsIndex l i := fun ⟨_, _, _, _, phase, _⟩ => by rw [granted] at phase; cases phase
  refine ⟨fun _ all => ?_, fun drains m stands duration deadline drain tag phase => ?_,
    fun some_ m stands duration deadline drain tag phase => ?_, fun all => ?_⟩
  · refine grant_all_eased (k := h) (clears := false) (gone := []) all (eased_refl ..) (fun m stands => ?_) fun m stands => ?_
    · rcases stood stands with before | rfl
      · exact ⟨m, before, .refl m, fun _ _ drains => drains⟩
      · exact ⟨l, ⟨x, slot, held⟩, ⟨rfl, rfl, rfl, rfl⟩, fun i _ drains => absurd drains (undrained i)⟩
    · rcases stood stands with before | rfl
      · exact ⟨m, before, .refl m⟩
      · exact ⟨l, ⟨x, slot, held⟩, ⟨rfl, rfl, rfl, rfl⟩⟩
  · rcases stood stands with before | rfl
    · exact drains m before duration deadline drain tag phase
    · cases phase
  · rcases stood stands with before | rfl
    · exact some_ m before duration deadline drain tag phase
    · cases phase
  · exact hold_all_stand all rfl (agree_on_slot h x.id (.granted later) rfl).1.leases_stand

/-- The entry of an admitted request has LEASE if some lease conflicts with it, and is HELD then. -/
theorem admitted_lease (h : Hub) (p : Port) (kind : Access) (tag : Byte) (words a : Nat) (i : Index) (data : List Word) :
    ((admitted h p kind tag words a i data).holds.lease = true ↔
      ∃ l, Standing h l ∧ l.conflictsWith p kind a (words * 8) = true) ∧
    ((admitted h p kind tag words a i data).holds.lease = true → (admitted h p kind tag words a i data).phase = .held) ∧
    ((admitted h p kind tag words a i data).port = p ∧ (admitted h p kind tag words a i data).kind = kind ∧
      (admitted h p kind tag words a i data).addr = a ∧ (admitted h p kind tag words a i data).words = words) := by
  have lease : (h.newHolds (h.newEntry p kind tag words a i data)).lease = true ↔
      ∃ l, Standing h l ∧ l.conflictsWith p kind a (words * 8) = true := by
    simp only [Hub.newHolds, Hub.foreignConflicts, ids_where_empty, Bool.not_not]
    exact some_lease_iff h _
  rcases promote_cases { h.newEntry p kind tag words a i data with holds := h.newHolds (h.newEntry p kind tag words a i data) }
    with ⟨_, empty, promoted⟩ | ⟨_, kept⟩
  · rw [admitted, promoted]
    simp only [Holds.isEmpty, Bool.and_eq_true, Bool.not_eq_true'] at empty
    exact ⟨lease, fun yes => absurd (yes.symm.trans empty.1.2) (by decide), rfl, rfl, rfl, rfl⟩
  · rw [admitted, kept]
    exact ⟨lease, fun _ => rfl, rfl, rfl, rfl, rfl⟩

theorem Keeps.admits {c : Prop} {h g : Hub} {p : Port} {kind : Access} {tag : Byte} {words a : Nat} {i : Index} {data : List Word}
    (slots : g.leases.slots = h.leases.slots) (table : g.table = h.table ++ [admitted h p kind tag words a i data]) :
    Keeps c h g := by
  obtain ⟨lease, held, port, kind', addr, words'⟩ := admitted_lease h p kind tag words a i data
  have new {e : Entry} (member : e ∈ g.table) : e ∈ h.table ∨ e = admitted h p kind tag words a i data := by
    rw [table] at member
    exact (List.mem_append.mp member).imp_right List.mem_singleton.mp
  have asks (l : Lease) : l.conflictsWith (admitted h p kind tag words a i data).port (admitted h p kind tag words a i data).kind
      (admitted h p kind tag words a i data).addr (admitted h p kind tag words a i data).length =
        l.conflictsWith p kind a (words * 8) := by
    rw [Entry.length, port, kind', addr, words']
  have stood (l : Lease) : Standing g l ↔ Standing h l := standing_congr slots l
  refine ⟨fun _ all l stands e member conflict => ?_, fun drains l stands duration deadline drain tag phase i inside => ?_,
    fun some_ l stands => some_ l ((stood l).mp stands), fun all e member isHeld isLease => ?_⟩
  · rcases new member with before | rfl
    · exact all l ((stood l).mp stands) e before conflict
    · rw [asks] at conflict
      have leased := lease.mpr ⟨l, (stood l).mp stands, conflict⟩
      exact .inl ⟨held leased, leased⟩
  · rw [table, List.map_append]
    exact List.mem_append_left _ (drains l ((stood l).mp stands) duration deadline drain tag phase i inside)
  · rcases new member with before | rfl
    · obtain ⟨l, stands, conflict⟩ := all e before isHeld isLease
      exact ⟨l, (stood l).mpr stands, conflict⟩
    · obtain ⟨l, stands, conflict⟩ := lease.mp isLease
      exact ⟨l, (stood l).mpr stands, (asks l).trans conflict⟩

/-! ### Bursts -/

/-- A served entry before and afterwards: what it asks of leases is the same, and it is HELD as before, where `c` holds. -/
structure SameClaim (c : Prop) (e e' : Entry) : Prop where
  index : e'.index = e.index
  port : e'.port = e.port
  kind : e'.kind = e.kind
  length : e'.addr = e.addr ∧ e'.words = e.words
  holds : e'.holds = e.holds
  before : e'.phase = .held → e.phase = .held
  after : c → e.phase = .held → e'.phase = .held

theorem SameClaim.refl (c : Prop) (e : Entry) : SameClaim c e e := ⟨rfl, rfl, rfl, ⟨rfl, rfl⟩, rfl, id, fun _ => id⟩

/-- A change of the entries served. -/
theorem Keeps.served {c : Prop} {h g : Hub} (slots : g.leases.slots = h.leases.slots)
    (indices : g.table.map Entry.index = h.table.map Entry.index)
    (each : ∀ e' ∈ g.table, ∃ e ∈ h.table, SameClaim c e e') : Keeps c h g := by
  have stood (l : Lease) : Standing g l ↔ Standing h l := standing_congr slots l
  have asks {e e' : Entry} (claim : SameClaim c e e') (l : Lease) :
      l.conflictsWith e'.port e'.kind e'.addr e'.length = l.conflictsWith e.port e.kind e.addr e.length := by
    rw [Entry.length, claim.port, claim.kind, claim.length.1, claim.length.2]
    rfl
  refine ⟨fun yes all l stands e' member conflict => ?_, fun drains l stands duration deadline drain tag phase i inside => ?_,
    fun some_ l stands => some_ l ((stood l).mp stands), fun all e' member held lease => ?_⟩
  · obtain ⟨e, inTable, claim⟩ := each e' member
    rcases all l ((stood l).mp stands) e inTable ((asks claim l).symm.trans conflict) with ⟨held, lease⟩ | drains
    · exact .inl ⟨claim.after yes held, by rw [claim.holds]; exact lease⟩
    · exact .inr (claim.index ▸ drains)
  · rw [indices]
    exact drains l ((stood l).mp stands) duration deadline drain tag phase i inside
  · obtain ⟨e, inTable, claim⟩ := each e' member
    obtain ⟨l, stands, conflict⟩ := all e inTable (claim.before held) (claim.holds ▸ lease)
    exact ⟨l, (stood l).mpr stands, (asks claim l).trans conflict⟩

theorem Keeps.starts {h : Hub} {e : Entry} (granted : h.grant = some e) : Keeps (EntryLaw h) h (h.startBurst e) := by
  have starts := start_burst_table h e
  refine .served rfl (Lasting.starts (F := Entry.index) (fun _ _ _ _ _ _ _ _ _ => rfl) starts) fun z' inside => ?_
  obtain ⟨z, member, start⟩ := started_before starts inside
  have static : z'.addr = z.addr ∧ z'.words = z.words ∧ z'.holds = z.holds := by
    rw [start.frame]
    exact ⟨rfl, rfl, rfl⟩
  obtain ⟨⟨index, port, _, kind⟩, _⟩ := start.fields
  refine ⟨z, member, index, port, kind, ⟨static.1, static.2.1⟩, static.2.2, fun held => ?_, fun law held => ?_⟩
  · have phase := start.phase
    split at phase
    · rw [phase] at held
      cases held
    · exact phase ▸ held
  · have other : z.index ≠ e.index := fun own => by
      have grants := granted_to granted
      rw [entry_unique law.indices member grants.member own] at held
      have servable := (servable_iff e).mp grants.servable
      rw [held] at servable
      rcases servable with no | ⟨no, _⟩ <;> cases no
    rw [start.phase, if_neg other, held]

/-- The entry of a completed burst takes its place. -/
theorem Keeps.put {h g : Hub} {x : Burst} {e f : Entry} {phase : Phase} (flying : h.scheduler.burst = some x)
    (found : h.entry x.entry = some e) (progress : Progress e f) (goes : phase = f.phase ∨ phase ≠ .held)
    (slots : g.leases.slots = h.leases.slots) (table : g.table = putAt h.table e.index { f with phase := phase }) :
    Keeps (EntryLaw h) h g := by
  obtain ⟨⟨index, port, _, kind⟩, served, _⟩ := progress.fields
  have static : f.addr = e.addr ∧ f.words = e.words ∧ f.holds = e.holds := by
    rw [progress]
    exact ⟨rfl, rfl, rfl⟩
  obtain ⟨member, own⟩ := found_by_key found
  refine .served slots ?_ fun z' inside => ?_
  · rw [table, putAt, List.map_map]
    refine List.map_congr_left fun z _ => ?_
    simp only [Function.comp]
    split
    · next same => exact index.trans same.symm
    · rfl
  · rw [table] at inside
    rcases put_mem inside with rfl | ⟨before, _⟩
    · refine ⟨e, member, index, port, kind, ⟨static.1, static.2.1⟩, static.2.2, fun held => ?_, fun law held => ?_⟩
      · rcases goes with same | other
        · exact served.symm.trans (same.symm.trans held)
        · exact absurd held other
      · obtain ⟨y, inTable, index', active, _⟩ := law.burst x flying
        rw [entry_unique law.indices inTable member (index'.trans own.symm), held] at active
        cases active
    · exact ⟨z', before, .refl _ z'⟩

theorem Keeps.completes {h g : Hub} (law : SlotsLaw h) (completes : Completes h g) : Keeps (EntryLaw h) h g := by
  obtain ⟨x, e, f, d, c, b, flying, found, progress, _, rfl⟩ := completes
  generalize same : ({ h with dram := d, check := c, scheduler := { h.scheduler with banks := b } } : Hub) = m
  have slots : m.leases.slots = h.leases.slots := by rw [← same]
  have table : m.table = h.table := by rw [← same]
  obtain mark | ⟨kind, mark⟩ := Option.eq_none_or_eq_some f.aborting
  · rw [outcome_unmarked m e.index mark]
    split
    · refine .after (k := entryPut m e.index { f with phase := .done }) (.eased (clears := false) rfl ?_)
        (.put flying found progress (.inr (by decide)) slots (congrArg (putAt · _ _) table))
      exact eased_all _ _ _ (eases_reorder _ _ [e.index] [] _)
    · split
      · exact .put flying found progress (phase := .queued) (.inr (by decide)) slots (congrArg (putAt · _ _) table)
      · exact .put flying found progress (phase := f.phase) (.inl rfl) slots (congrArg (putAt · _ _) table)
  · rw [outcome_aborting m e.index mark]
    have paid : (abortPaid m e.index f kind).leases.slots = h.leases.slots := by rw [abort_paid_leases, slots]
    refine .after (.freed ?_ _) (.put flying found progress (phase := f.phase) (.inl rfl) paid
      ((abort_paid_table m e.index f kind).1.trans (congrArg (putAt · _ _) table)))
    rwa [SlotsLaw, paid]

/-! ### The moves -/

/-- Every move keeps the conditions. -/
theorem Act.keeps {c : Instr} {h g : Hub} (law : SlotsLaw h) (act : Act c h g) : Keeps (EntryLaw h) h g := by
  cases act with
  | @admits p kind tag words reserved addr a i data passes =>
    exact .admits (data := data) (by rw [want_memory_leases]; rfl) (want_memory_table _ _)
  | take fresh free unblocked => exact .take law _ free
  | leave slot held granted => exact .leave law _
  | renew later slot held granted => exact .renew law slot held granted
  | want => exact .same (by rw [want_memory_leases]) (want_memory_table _ _)
  | @wake p tag fresh => exact .same (congrArg LeaseUnit.slots (want_memory_leases h p)) (want_memory_table h p)
  | commit fresh outside unchanged passes => exact (Keeps.commit_aborts law _ (commit_idle passes)).trans (.same rfl rfl)
  | hubReset fresh outside unchanged =>
    refine .empties (none_emptied (discard_work_slots h)) fun e member held _ => ?_
    rw [discarded_flies member] at held
    cases held
  | @placeReply p r rest reply head owner =>
    cases r with
    | entry tag i =>
      exact .after (.freed (h := (headGone h p tag rest).onMessages p (fun m => { m with completed := rise32 m.completed }))
        law [i]) (.same rfl rfl)
    | fence tag => exact .eased rfl (fence_eased h h p)
    | _ => exact .same rfl rfl
  | teardown command => exact .teardown law _
  | startBurst granted => exact .starts granted
  | completeRead command flying kind served => exact .completes law (completes_of_read flying served)
  | completeWrite command flying kind served => exact .completes law (completes_of_write flying served)
  | leavingEnds flying outside leaving unchanged =>
    rw [become_serving_eq]
    exact .eased rfl (served_eased h h)
  | bringupEnds flying inside =>
    rw [end_bringup_eq]
    split <;> exact .eased rfl (served_eased h h)
  | waitEnds found => exact .after (.scan (by exact law)) (.same rfl rfl)
  | grantingEnds found => exact (Keeps.leave law _).trans (.same rfl rfl)
  | copy command pending idle out => exact (Keeps.commit_aborts law _ fun no => by cases no).trans (.same rfl rfl)
  | reset command pending idle out layers => exact .empties (none_emptied rfl) fun e member => by cases member
  | _ => exact .same rfl rfl

theorem settle_keeps {c : Prop} (h : Hub) : Keeps c h h.settle := by
  obtain ⟨clears, eased, _⟩ := settle_eased h
  exact .eased (by rw [settle_leases]) eased

theorem Quiet.keeps {c : Prop} {h g : Hub} (quiet : Quiet h g) : Keeps c h g := .same quiet.slots.1 quiet.table

theorem quiet_slots_law {h g : Hub} (quiet : Quiet h g) (law : SlotsLaw h) : SlotsLaw g := by
  rwa [SlotsLaw, quiet.slots.1]

theorem settle_slots_law {h : Hub} (law : SlotsLaw h) : SlotsLaw h.settle := by
  rwa [SlotsLaw, settle_leases]

theorem power_up_keeps (n : Nat) : GrantAll (Hub.powerUp n) ∧ DrainsIn (Hub.powerUp n) ∧ DrainsSome (Hub.powerUp n) ∧
    HoldAll (Hub.powerUp n) :=
  ⟨fun l stands => absurd stands (power_up_stands_none n l), fun l stands => absurd stands (power_up_stands_none n l),
    fun l stands => absurd stands (power_up_stands_none n l), fun _ member => absurd member List.not_mem_nil⟩

theorem grant_law_kept : KeptByEveryStep (fun h => EntryLaw h ∧ GrantLaw h) :=
  kept_by_moves (middle := fun h => EntryLaw h ∧ GrantLaw h)
    (fun quiet law => ⟨entry_law_quiet quiet law.1, quiet_slots_law quiet law.2.1, quiet.keeps.grants trivial law.2.2⟩)
    (fun law act => ⟨entry_law_moves law.1 act, act.lease_move.slots_law law.2.1, (act.keeps law.2.1).grants law.1 law.2.2⟩)
    (fun quiet law => ⟨entry_law_quiet quiet law.1, quiet_slots_law quiet law.2.1, quiet.keeps.grants trivial law.2.2⟩)
    (fun law => ⟨entry_law_settle law.1, settle_slots_law law.2.1, (settle_keeps _).grants trivial law.2.2⟩)
    (fun n => ⟨power_up_entry_law n, power_up_slots_law n, (power_up_keeps n).1⟩)
    fun n => ⟨entry_law_same (power_up_entry_law n) rfl rfl (.of_messages rfl), power_up_slots_law n, (power_up_keeps n).1⟩

theorem drain_law_kept : KeptByEveryStep DrainLaw := by
  rw [show DrainLaw = fun h => SlotsLaw h ∧ DrainsIn h ∧ DrainsSome h from funext fun h => propext (drain_law_iff h)]
  exact kept_by_moves (middle := fun h => SlotsLaw h ∧ DrainsIn h ∧ DrainsSome h)
    (fun quiet law => ⟨quiet_slots_law quiet law.1, (quiet.keeps (c := True)).drains law.2.1, (quiet.keeps (c := True)).nonempty law.2.2⟩)
    (fun law act => ⟨act.lease_move.slots_law law.1, (act.keeps law.1).drains law.2.1, (act.keeps law.1).nonempty law.2.2⟩)
    (fun quiet law => ⟨quiet_slots_law quiet law.1, (quiet.keeps (c := True)).drains law.2.1, (quiet.keeps (c := True)).nonempty law.2.2⟩)
    (fun law => ⟨settle_slots_law law.1, (settle_keeps (c := True) _).drains law.2.1, (settle_keeps (c := True) _).nonempty law.2.2⟩)
    (fun n => ⟨power_up_slots_law n, (power_up_keeps n).2.1, (power_up_keeps n).2.2.1⟩)
    fun n => ⟨power_up_slots_law n, (power_up_keeps n).2.1, (power_up_keeps n).2.2.1⟩

theorem lease_hold_law_kept : KeptByEveryStep LeaseHoldLaw :=
  kept_by_moves (middle := LeaseHoldLaw)
    (fun quiet law => ⟨quiet_slots_law quiet law.1, (quiet.keeps (c := True)).holds law.2⟩)
    (fun law act => ⟨act.lease_move.slots_law law.1, (act.keeps law.1).holds law.2⟩)
    (fun quiet law => ⟨quiet_slots_law quiet law.1, (quiet.keeps (c := True)).holds law.2⟩)
    (fun law => ⟨settle_slots_law law.1, (settle_keeps (c := True) _).holds law.2⟩)
    (fun n => ⟨power_up_slots_law n, (power_up_keeps n).2.2.2⟩) fun n => ⟨power_up_slots_law n, (power_up_keeps n).2.2.2⟩

/-! ### The re-check, the promotion and the conflicts (R12, R77, R88) -/

theorem promote_eq (e : Entry) : e.promote = if e.phase = .held ∧ e.holds = Holds.none then { e with phase := .queued } else e := by
  rcases promote_cases e with ⟨held, empty, promoted⟩ | ⟨stays, same⟩
  · rw [promoted, if_pos ⟨held, holds_is_empty_iff.mp empty⟩]
  · rw [same, if_neg fun ⟨held, empty⟩ => stays ⟨held, holds_is_empty_iff.mpr empty⟩]

theorem conflicts_with_iff (l : Lease) (p : Port) (kind : Access) (addr length : Nat) :
    l.conflictsWith p kind addr length = true ↔
      l.owner ≠ p ∧ rangesOverlap l.base l.length addr length = true ∧ (l.mode = .sole ∨ kind = .write) := by
  simp [Lease.conflictsWith, and_assoc]

/-- Settles O60: the laws, and what the re-check, the promotion and a conflict are. -/
theorem stepsKeepWhatALeaseHolds : Obligations.StepsKeepWhatALeaseHolds := by
  refine ⟨grant_law_kept, drain_law_kept, lease_hold_law_kept, fun h => ?_, promote_eq, conflicts_with_iff⟩
  refine congrArg (fun t => { h with table := t }) (List.map_congr_left fun e _ => ?_)
  have free : h.leases.idsWhere (fun l => l.conflictsWith e.port e.kind e.addr e.length) = [] ↔
      someLease h (fun l => l.conflictsWith e.port e.kind e.addr (e.words * 8)) = false := by
    rw [← List.isEmpty_iff, ids_where_empty, Bool.not_eq_true']
    rfl
  by_cases released : e.phase = .held ∧ e.holds.lease = true ∧
      someLease h (fun l => l.conflictsWith e.port e.kind e.addr (e.words * 8)) = false
  · obtain ⟨held, lease, none_left⟩ := released
    rw [if_pos ⟨held, lease, free.mpr none_left⟩, if_pos ⟨held, lease, none_left⟩,
      promote_held (show ({ e with holds := { e.holds with lease := false } } : Entry).phase = .held from held)]
    simp [Holds.none]
  · rw [if_neg released, if_neg fun ⟨held, lease, none_left⟩ => released ⟨held, lease, free.mp none_left⟩]

end Sys2Proof.Safety
end

section
/-! SUPPORT. The tags of outstanding requests as multisets, and how grants and the wait-list scan move them (R156, R158). -/

namespace Sys2Proof.Safety

open Sys2Proof.Machine

/-! ### The parts of the outstanding requests -/

/-- The tags of the entries of a port that have a reply to come. -/
def entryTags (t : List Entry) (p : Port) : Multiset Byte :=
  ((t.filter (fun e => e.port == p && e.aborting != some .torn)).map Entry.tag : List Byte)

def fenceTags (m : MessageLayer) : Multiset Byte := (m.fences.map Fence.tag : List Byte)

/-- The tags of the requests of which only the reply is pending. -/
def ownTags (rs : List PendingReply) : Multiset Byte := (rs.filterMap ownTag : List Byte)

def waitTags (ws : List Waiting) (p : Port) : Multiset Byte := ((ws.filter (fun w => w.port == p)).map Waiting.tag : List Byte)

def grantTags (xs : List LeaseSlot) (p : Port) : Multiset Byte := (xs.filterMap (grantingTag p) : List Byte)

def wakeTags (ws : List (Port × Byte)) (p : Port) : Multiset Byte := ((ws.filter (fun w => w.1 == p)).map Prod.snd : List Byte)

def changeTags (c : Option Change) (p : Port) : Multiset Byte :=
  (match c with
    | some c => if c.port = p ∧ c.torn = false then [c.tag] else []
    | none => [] : List Byte)

def bringupTags (b : Option Bringup) (p : Port) : Multiset Byte :=
  (match b with
    | some r => if r.port = p ∧ r.torn = false then [r.tag] else []
    | none => [] : List Byte)

/-- The tags of the outstanding requests of a port, in whatever order. -/
def owed (h : Hub) (p : Port) : Multiset Byte :=
  entryTags h.table p + fenceTags (h.layer p) + ownTags (h.layer p).replies + waitTags h.leases.waits p +
    grantTags h.leases.slots p + wakeTags h.rest.wakes p + changeTags h.config.change p + bringupTags h.config.bringup p

theorem owed_outstanding (h : Hub) (p : Port) : owed h p = (outstanding h p : List Byte) := by
  simp only [outstanding, ← Multiset.coe_add]
  rfl

/-! ### What a change of a message layer does to the tags of fences and replies -/

/-- The tag of a fence's reply. -/
def fenceTag : PendingReply → Option Byte
  | .fence t => some t
  | _ => none

/-- The pending replies of fences are apart, and each is that of a fence whose watch set is empty (R19). -/
def FencesOk (m : MessageLayer) : Prop :=
  (m.replies.filterMap fenceTag).Nodup ∧
    ∀ t ∈ m.replies.filterMap fenceTag, ∃ f ∈ m.fences, f.tag = t ∧ f.watch = []

/-- The tag set and the tags of the fences are the same; the tags `paid` join those of replies; the replies of fences stay in
agreement. -/
structure Flow (m m' : MessageLayer) (paid : Multiset Byte) : Prop where
  tags : m'.tags = m.tags
  fences : m'.fences.map Fence.tag = m.fences.map Fence.tag
  own : ownTags m'.replies = ownTags m.replies + paid
  agree : (m.fences.map Fence.tag).Nodup → FencesOk m → FencesOk m'

theorem Flow.refl (m : MessageLayer) : Flow m m 0 := ⟨rfl, rfl, (add_zero _).symm, fun _ ok => ok⟩

theorem Flow.trans {k l m : MessageLayer} {a b : Multiset Byte} (first : Flow k l a) (second : Flow l m b) :
    Flow k m (a + b) where
  tags := second.tags.trans first.tags
  fences := second.fences.trans first.fences
  own := by rw [second.own, first.own, add_assoc]
  agree apart ok := second.agree (by rw [first.fences]; exact apart) (first.agree apart ok)

theorem own_tags_append (rs ss : List PendingReply) : ownTags (rs ++ ss) = ownTags rs + ownTags ss := by
  rw [ownTags, List.filterMap_append, ← Multiset.coe_add]
  rfl

/-- Replies to requests that nothing else of the hub holds join the tail. -/
theorem Flow.more {m m' : MessageLayer} {rs : List PendingReply} (tags : m'.tags = m.tags) (fences : m'.fences = m.fences)
    (replies : m'.replies = m.replies ++ rs) (own : rs.filterMap fenceTag = []) : Flow m m' (ownTags rs) where
  tags := tags
  fences := by rw [fences]
  own := by rw [replies, own_tags_append]
  agree _ ok := by
    unfold FencesOk
    rw [replies, List.filterMap_append, own, List.append_nil, fences]
    exact ok

theorem Flow.same {m m' : MessageLayer} (same : SameWork m m') : Flow m m' 0 := by
  obtain ⟨tags, replies, fences⟩ := same
  exact .more tags fences (by rw [replies, List.append_nil]) (rs := []) rfl

/-- The fences of `m` that a release completes. -/
def completed (m : MessageLayer) (gone : List Index) : List Fence :=
  m.fences.filter (fun f => !f.watch.isEmpty && f.watch.all (fun i => gone.contains i))

theorem unwatch_replies (m : MessageLayer) (gone : List Index) :
    (m.unwatch gone).replies = m.replies ++ (completed m gone).map (fun f => PendingReply.fence f.tag) := rfl

theorem unwatch_fences (m : MessageLayer) (gone : List Index) :
    (m.unwatch gone).fences = m.fences.map (fun f => { f with watch := f.watch.filter (fun i => !gone.contains i) }) := rfl

theorem fence_replies_tags (fs : List Fence) : (fs.map (fun f => PendingReply.fence f.tag)).filterMap fenceTag = fs.map Fence.tag := by
  induction fs with
  | nil => rfl
  | cons f fs ih => exact congrArg (f.tag :: ·) ih

theorem fence_replies_own (fs : List Fence) : ownTags (fs.map (fun f => PendingReply.fence f.tag)) = 0 := by
  induction fs with
  | nil => rfl
  | cons f fs ih => exact ih

/-- Entries leave the watch sets, and the fences this completes are answered (R19). -/
theorem Flow.unwatch (m : MessageLayer) (gone : List Index) : Flow m (m.unwatch gone) 0 where
  tags := rfl
  fences := by
    rw [unwatch_fences, List.map_map]
    rfl
  own := by rw [unwatch_replies, own_tags_append, fence_replies_own]
  agree apart ok := by
    obtain ⟨distinct, each⟩ := ok
    have replies : (m.unwatch gone).replies.filterMap fenceTag =
        m.replies.filterMap fenceTag ++ (completed m gone).map Fence.tag := by
      rw [unwatch_replies, List.filterMap_append, fence_replies_tags]
    have unwatched {f : Fence} (member : f ∈ m.fences) : { f with watch := f.watch.filter (fun i => !gone.contains i) } ∈
        (m.unwatch gone).fences := List.mem_map_of_mem member
    unfold FencesOk
    rw [replies]
    refine ⟨List.nodup_append.mpr ⟨distinct, apart.sublist (List.filter_sublist.map _), ?_⟩, fun t listed => ?_⟩
    · rintro t before _ now rfl
      obtain ⟨f, member, own, empty⟩ := each t before
      obtain ⟨f', done, same⟩ := List.mem_map.mp now
      obtain ⟨member', complete⟩ := List.mem_filter.mp done
      rw [List.inj_on_of_nodup_map apart member' member (same.trans own.symm), empty] at complete
      cases complete
    · rcases List.mem_append.mp listed with before | now
      · obtain ⟨f, member, own, empty⟩ := each t before
        exact ⟨_, unwatched member, own, by rw [empty]; rfl⟩
      · obtain ⟨f, done, own⟩ := List.mem_map.mp now
        obtain ⟨member, complete⟩ := List.mem_filter.mp done
        refine ⟨_, unwatched member, own, List.filter_eq_nil_iff.mpr fun i inside => ?_⟩
        rw [Bool.and_eq_true] at complete
        simpa using List.all_eq_true.mp complete.2 i inside

/-! ### Slots -/

/-- One slot of the table is replaced. -/
theorem replace_slot {β : Type} (F : LeaseSlot → Option β) {xs : List LeaseSlot} (apart : (xs.map LeaseSlot.id).Nodup)
    {x : LeaseSlot} (member : x ∈ xs) (f : LeaseSlot → LeaseSlot) :
    (xs.filterMap F : Multiset β) + ((F (f x)).toList : List β) =
      ((xs.map (fun y => if y.id = x.id then f y else y)).filterMap F : List β) + ((F x).toList : List β) := by
  induction xs with
  | nil => cases member
  | cons y xs ih =>
    obtain ⟨first, rest⟩ := List.nodup_cons.mp apart
    have cons (g : LeaseSlot) (gs : List LeaseSlot) :
        (((g :: gs).filterMap F : List β) : Multiset β) = ((F g).toList : List β) + (gs.filterMap F : List β) := by
      rw [Multiset.coe_add]
      rw [List.filterMap_cons]
      cases F g <;> rfl
    rcases List.mem_cons.mp member with rfl | later
    · have others : xs.map (fun y => if y.id = x.id then f y else y) = xs := by
        refine (List.map_congr_left fun z inside => ?_).trans (List.map_id xs)
        exact if_neg fun (same : z.id = x.id) => first (same ▸ List.mem_map_of_mem inside)
      rw [List.map_cons, others, if_pos rfl, cons, cons]
      ac_rfl
    · have other : y.id ≠ x.id := fun same => first (same ▸ List.mem_map_of_mem later)
      rw [List.map_cons, if_neg other, cons, cons, add_assoc, ih rest later, add_assoc]

theorem slots_apart {h : Hub} (law : SlotsLaw h) : (h.leases.slots.map LeaseSlot.id).Nodup := by
  rw [show h.leases.slots.map LeaseSlot.id = _ from law]
  exact List.nodup_finRange 16

/-- The tag of a lease of a port that is GRANTING. -/
theorem granting_tag_some {x : LeaseSlot} {l : Lease} {duration deadline : Nat} {drain : List Index} {tag : Byte}
    (held : x.lease = some l) (phase : l.phase = .granting duration deadline drain tag) (p : Port) :
    grantingTag p x = if l.owner = p then some tag else none := by
  obtain ⟨owner, base, length, mode, ph⟩ := l
  cases phase
  rw [grantingTag, held]

theorem granting_tag_granted {x : LeaseSlot} {l : Lease} {expiry : Nat} (held : x.lease = some l)
    (phase : l.phase = .granted expiry) (p : Port) : grantingTag p x = none := by
  obtain ⟨owner, base, length, mode, ph⟩ := l
  cases phase
  rw [grantingTag, held]

theorem granting_tag_free {x : LeaseSlot} (free : x.lease = none) (p : Port) : grantingTag p x = none := by
  rw [grantingTag, free]

/-! ### Grants -/

/-- The tags of a port that its leases and waiting requests hold move to replies. -/
def LeaseFlow (h g : Hub) (p : Port) : Prop :=
  ∃ paid, Flow (h.layer p) (g.layer p) paid ∧ (SlotsLaw h →
    waitTags h.leases.waits p + grantTags h.leases.slots p = waitTags g.leases.waits p + grantTags g.leases.slots p + paid)

/-- A tag of a port alone. -/
def tagOf (q p : Port) (tag : Byte) : Multiset Byte := if q = p then {tag} else 0

theorem flow_defer (h : Hub) (q : Port) {r : PendingReply} {tag : Byte} (own : ownTag r = some tag) (p : Port) :
    Flow (h.layer p) ((h.defer q r).layer p) (tagOf q p tag) := by
  rw [defer_layer, tagOf]
  split
  · next same =>
    rw [if_pos same.symm, same]
    have more : Flow (h.layer q) { h.layer q with replies := (h.layer q).replies ++ [r] } (ownTags [r]) :=
      .more rfl rfl rfl (by cases r <;> simp_all [ownTag, fenceTag])
    rwa [show ownTags [r] = {tag} by simp [ownTags, own]] at more
  · next other =>
    rw [if_neg (Ne.symm other)]
    exact .refl _

theorem LeaseFlow.of_flow {h g : Hub} {p : Port} (flow : Flow (h.layer p) (g.layer p) 0)
    (leases : waitTags g.leases.waits p + grantTags g.leases.slots p =
      waitTags h.leases.waits p + grantTags h.leases.slots p) : LeaseFlow h g p :=
  ⟨0, flow, fun _ => by rw [leases, add_zero]⟩

theorem LeaseFlow.trans {h k g : Hub} {p : Port} (a : LeaseFlow h k p) (b : LeaseFlow k g p)
    (law : SlotsLaw h → SlotsLaw k) : LeaseFlow h g p := by
  obtain ⟨paid, flow, tags⟩ := a
  obtain ⟨paid', flow', tags'⟩ := b
  refine ⟨paid + paid', flow.trans flow', fun slots => ?_⟩
  rw [tags slots, tags' (law slots)]
  ac_rfl

/-- The tag of a lease that is granted leaves those of the GRANTING ones. -/
theorem started_tags {h : Hub} (law : SlotsLaw h) {x : LeaseSlot} {l : Lease} {duration deadline : Nat} {drain : List Index}
    {tag : Byte} (member : x ∈ h.leases.slots) (held : x.lease = some l)
    (phase : l.phase = .granting duration deadline drain tag) (d : Nat) (p : Port) :
    grantTags h.leases.slots p = grantTags (h.startLease x.id d).leases.slots p + tagOf l.owner p tag := by
  have replaced := replace_slot (grantingTag p) (slots_apart law) member (fun s =>
    { s with lease := s.lease.map (fun l => { l with phase := .granted (h.hubTime + d) }) })
  rw [granting_tag_some held phase, granting_tag_granted (congrArg (Option.map _) held) rfl] at replaced
  rw [show grantTags h.leases.slots p = grantTags h.leases.slots p + ((none : Option Byte).toList : List Byte) from
    (add_zero _).symm]
  refine replaced.trans (congrArg (grantTags _ p + ·) ?_)
  rw [tagOf]
  split <;> rfl

theorem flow_grant (h : Hub) (id : LeaseId) (p : Port) : LeaseFlow h (h.grantIfDrained id) p := by
  rcases grant_if_drained_cases h id with same | ⟨x, l, duration, deadline, tag, found, held, phase, same⟩
  · rw [same]
    exact .of_flow (.refl _) rfl
  · rw [same]
    refine ⟨tagOf l.owner p tag, flow_defer (h.startLease id duration) l.owner rfl p, fun law => ?_⟩
    obtain ⟨member, rfl⟩ := slot_some found
    rw [started_tags law member held phase duration p, add_assoc]
    rfl

theorem flow_grants (h : Hub) (ids : List LeaseId) (p : Port) : LeaseFlow h (ids.foldl Hub.grantIfDrained h) p := by
  induction ids generalizing h with
  | nil => exact .of_flow (.refl _) rfl
  | cons id ids ih => exact (flow_grant h id p).trans (ih _) fun law => grant_law law id

/-! ### Requests placed (R89) -/

/-- A request that occupies a free slot. -/
theorem occupied_tags {h : Hub} (law : SlotsLaw h) {id : LeaseId} {w : Waiting} (free : h.freeSlot = some id) (p : Port) :
    grantTags (h.occupySlot id w).leases.slots p = grantTags h.leases.slots p + tagOf w.port p w.tag := by
  obtain ⟨x, member, rfl, unheld, _⟩ := free_slot_some free
  have replaced := replace_slot (grantingTag p) (slots_apart law) member (fun s =>
    { s with
      generation := s.generation + 1
      lease := some ⟨w.port, w.base, w.length, w.mode, .granting w.duration w.deadline (drainOf h w) w.tag⟩ })
  rw [granting_tag_free unheld, granting_tag_some rfl rfl] at replaced
  refine Eq.trans ?_ (replaced.symm.trans (congrArg (grantTags h.leases.slots p + ·) ?_))
  · exact (add_zero _).symm
  · rw [tagOf]
    dsimp only
    split <;> rfl

theorem wait_tags_append (ws vs : List Waiting) (p : Port) : waitTags (ws ++ vs) p = waitTags ws p + waitTags vs p := by
  rw [waitTags, List.filter_append, List.map_append, ← Multiset.coe_add]
  rfl

theorem wait_tags_single (w : Waiting) (p : Port) : waitTags [w] p = tagOf w.port p w.tag := by
  unfold waitTags tagOf
  by_cases own : w.port = p <;> simp [own]

/-- The scan: the requests that are not placed are left, and each tag stays with its request or moves to a reply. -/
theorem flow_scan_from (h : Hub) (kept ws : List Waiting) (p : Port) : ∃ paid,
    Flow (h.layer p) ((h.scanFrom kept ws).layer p) paid ∧
      (h.scanFrom kept ws).leases.waits.length ≤ kept.length + ws.length ∧
      (SlotsLaw h → waitTags (kept ++ ws) p + grantTags h.leases.slots p =
        waitTags (h.scanFrom kept ws).leases.waits p + grantTags (h.scanFrom kept ws).leases.slots p + paid) := by
  induction ws generalizing h kept with
  | nil => exact ⟨0, .refl _, le_of_eq rfl, fun _ => by rw [List.append_nil, add_zero]; rfl⟩
  | cons w ws ih =>
    by_cases stays : Stays h kept w
    · obtain ⟨paid, flow, length, tags⟩ := ih h (kept ++ [w])
      rw [scan_stays stays]
      rw [List.append_assoc] at tags
      refine ⟨paid, flow, ?_, tags⟩
      rw [List.length_append, List.length_singleton] at length
      rw [List.length_cons]
      omega
    · obtain ⟨id, free, same⟩ := scan_places (ws := ws) stays
      obtain ⟨paid, flow, length, tags⟩ := ih ((h.occupySlot id w).grantIfDrained id) kept
      obtain ⟨first, placed, granted⟩ := flow_grant (h.occupySlot id w) id p
      have waits : ((h.occupySlot id w).grantIfDrained id).leases.waits = h.leases.waits := grants_waits (h.occupySlot id w) [id]
      rw [same]
      refine ⟨first + paid, placed.trans flow, length.trans (by rw [List.length_cons]; omega), fun law => ?_⟩
      have law' := occupied_law law id w
      have moved := granted law'
      rw [waits, show (h.occupySlot id w).leases.waits = h.leases.waits from rfl, add_assoc, add_right_inj,
        occupied_tags law free] at moved
      rw [show kept ++ w :: ws = kept ++ ([w] ++ ws) from rfl, wait_tags_append, wait_tags_append, wait_tags_single]
      have rest := tags (grant_law law' id)
      rw [wait_tags_append] at rest
      calc waitTags kept p + (tagOf w.port p w.tag + waitTags ws p) + grantTags h.leases.slots p
          = waitTags kept p + waitTags ws p + (grantTags h.leases.slots p + tagOf w.port p w.tag) := by ac_rfl
        _ = waitTags kept p + waitTags ws p + grantTags ((h.occupySlot id w).grantIfDrained id).leases.slots p + first := by
          rw [moved]
          ac_rfl
        _ = _ := by
          rw [rest]
          ac_rfl

theorem flow_scan (h : Hub) (p : Port) : LeaseFlow h h.scanWaits p := by
  obtain ⟨paid, flow, _, tags⟩ := flow_scan_from h [] h.leases.waits p
  exact ⟨paid, flow, tags⟩

theorem scan_waits_length (h : Hub) : h.scanWaits.leases.waits.length ≤ h.leases.waits.length := by
  obtain ⟨_, _, length, _⟩ := flow_scan_from h [] h.leases.waits 0
  rwa [List.length_nil, Nat.zero_add] at length

/-! ### Removals -/

theorem without_granting_tag (gone : List Index) (p : Port) (x : LeaseSlot) :
    grantingTag p (slotWithout gone x) = grantingTag p x := by
  cases held : x.lease with
  | none => rw [granting_tag_free held, granting_tag_free (congrArg (Option.map _) held)]
  | some l =>
    cases phase : l.phase with
    | granted t =>
      rw [granting_tag_granted held phase, granting_tag_granted (expiry := t) (congrArg (Option.map _) held)]
      simp only [phase]
    | granting duration deadline drain tag =>
      rw [slot_without_granting gone held phase, granting_tag_some held phase, granting_tag_some rfl rfl]

theorem flow_removed (h : Hub) (gone : List Index) (p : Port) : LeaseFlow h (h.removeEntries gone) p := by
  rw [remove_entries_eq]
  refine .of_flow ?_ ?_
  · have layer : (Hub.release { h with
        table := h.table.filter (fun e => decide (e.index ∉ gone))
        scheduler := { h.scheduler with banks := h.scheduler.banks.map (fun k =>
          { k with openedFor := k.openedFor.filter (fun i => decide (i ∉ gone)) }) }
        leases := { h.leases with slots := h.leases.slots.map (slotWithout gone) } } gone).layer p =
      (h.layer p).unwatch gone := quad_get_map _ _ _
    rw [layer]
    exact .unwatch _ gone
  · rw [Hub.release_leases]
    refine congrArg (waitTags h.leases.waits p + ·) ?_
    rw [grantTags, grantTags, List.filterMap_map]
    exact congrArg _ (List.filterMap_congr fun x _ => without_granting_tag gone p x)

theorem flow_freed (h : Hub) (gone : List Index) (p : Port) : LeaseFlow h (h.freeEntries gone) p :=
  (flow_removed h gone p).trans (flow_grants _ _ p) (agree_removed h gone).1.slots_law

end Sys2Proof.Safety
end

section
/-! SUPPORT. Proofs that every step keeps the memory's form, the role on a port that is UP, the lists within their sizes and
the replay lists consecutive. -/

namespace Sys2Proof.Safety

open Sys2Proof.Machine

/-! ### The memory's form -/

theorem WorkOnly.dram {h g : Hub} (work : WorkOnly h g) : g.dram = h.dram := by
  obtain ⟨t, f, u, ms, ls, rfl⟩ := work
  rfl

theorem memory_law_same {h g : Hub} (data : g.dram.data = h.dram.data) (codes : g.dram.codes = h.dram.codes)
    (law : MemoryLaw h) : MemoryLaw g := by
  unfold MemoryLaw Dram.wf at *
  rwa [data, codes]

theorem memory_law_stores {h g : Hub} (same : SameStores h g) (law : MemoryLaw h) : MemoryLaw g :=
  memory_law_same same.data same.codes law

theorem memory_law_moves {c : Instr} {h g : Hub} (law : MemoryLaw h) (act : Act c h g) : MemoryLaw g := by
  have kept {k : Hub} (same : k.dram = h.dram) : MemoryLaw k := memory_law_same (by rw [same]) (by rw [same]) law
  cases act with
  | @admits p kind tag words reserved addr a i data passes =>
    exact memory_law_stores (stores_want _ _) (by exact law)
  | take fresh free unblocked place => exact kept (work_place_take _ _ _).dram
  | leave slot held granted => exact kept (work_leave _ _).dram
  | want => exact memory_law_stores (stores_want h _) law
  | @wake p tag fresh => exact memory_law_same (stores_want h p).data (stores_want h p).codes law
  | commit fresh outside unchanged passes => exact kept (work_commit_aborts h _ _).dram
  | hubReset fresh outside unchanged => exact kept (work_discard h).dram
  | placeReply head owner => exact kept (work_placed _ _ _).dram
  | @teardown p command =>
    obtain ⟨u, ms, torn, _⟩ := teardown_units h p
    exact kept (by rw [torn]; exact (work_rechecked h p).dram)
  | @completeRead flips x e command flying kind served =>
    have read : MemoryLaw { h with dram := (readDone h x e flips).dram, check := (readDone h x e flips).check } :=
      read_words_wf _ x.addr flips x.words law
    exact memory_law_stores (.trans ⟨rfl, rfl, rfl, rfl, rfl, rfl, rfl⟩ (work_complete_burst _ _ _).stores) read
  | @completeWrite x e command flying kind served =>
    have stored : MemoryLaw (writeDone h x) := dram_store_words_wf h.dram x.addr x.data law
    exact memory_law_stores (.trans ⟨rfl, rfl, rfl, rfl, rfl, rfl, rfl⟩ (work_complete_burst _ _ _).stores) stored
  | leavingEnds flying outside leaving unchanged => exact memory_law_stores (stores_become_serving (upkeepPaid h _)) law
  | bringupEnds flying inside => exact memory_law_stores (stores_end_bringup (upkeepPaid h _) _) law
  | waitEnds found => exact kept (work_scan _).dram
  | grantingEnds found => exact kept (work_leave _ _).dram
  | @copy force geometry p tag torn command pending idle out =>
    have aborted := (work_commit_aborts h true geometry).dram
    cases geometry
    · exact kept aborted
    · exact (dram_wf_iff _).mpr ⟨rfl, rfl⟩
  | reset command pending idle out layers => exact dram_forget_wf h.dram
  | _ => exact memory_law_same rfl rfl law

theorem memory_law_kept : KeptByEveryStep MemoryLaw :=
  kept_by_moves (fun quiet => memory_law_stores quiet.stores) memory_law_moves (fun quiet => memory_law_stores quiet.stores)
    (memory_law_stores (stores_settle _)) (fun _ => rfl) fun _ => rfl

/-! ### What the moves do to the links -/

theorem grants_links (h : Hub) (ids : List LeaseId) : (ids.foldl Hub.grantIfDrained h).links = h.links := by
  obtain ⟨u, ms, same⟩ := grants_frame h ids
  rw [same]

theorem removed_links (h : Hub) (gone : List Index) : (h.removeEntries gone).links = h.links := by
  rw [remove_entries_eq, Hub.release_links]

theorem freed_links (h : Hub) (gone : List Index) : (h.freeEntries gone).links = h.links :=
  (grants_links _ _).trans (removed_links h gone)

theorem abort_answered_links (h : Hub) : h.abortAnswered.links = h.links := by
  rw [abort_answered_eq (m := quadOf (abortedLayer h)) (quad_of_get _), removed_links]

theorem empty_leases_links (h : Hub) : h.emptyLeases.links = h.links := by
  obtain ⟨ms, same, _⟩ := emptied h
  rw [same]

theorem commit_aborts_links (h : Hub) (abort geometry : Bool) : (h.commitAborts abort geometry).links = h.links := by
  obtain ⟨both, empties, nothing, aborts⟩ := commit_aborts_eq h
  cases abort <;> cases geometry
  · rw [nothing]
  · rw [empties, empty_leases_links]
  · rw [aborts, Hub.grantDrained, grants_links, abort_answered_links]
  · rw [both, empty_leases_links, abort_answered_links]

theorem discard_links (h : Hub) : h.discardWork.links = h.links := by
  rw [discard_work_eq (m := quadOf (discardedLayer h)) (quad_of_get _), removed_links]

theorem outcome_links (m : Hub) (i : Index) (f : Entry) : (burstOutcome m i f).links = m.links := by
  obtain mark | ⟨kind, mark⟩ := Option.eq_none_or_eq_some f.aborting
  · rw [outcome_unmarked m i mark]
    split
    · rfl
    · split <;> rfl
  · rw [outcome_aborting m i mark, freed_links]
    cases kind <;> rfl

theorem Completes.links {h g : Hub} (completes : Completes h g) : g.links = h.links := by
  obtain ⟨x, e, f, d, c, b, _, _, _, _, rfl⟩ := completes
  exact outcome_links _ _ _

theorem torn_link (h : Hub) (p q : Port) : (h.teardown p).link q = if q = p then tornLink h p else h.link q := by
  obtain ⟨ms, same, _⟩ := teardown_frame h p
  rw [same]
  exact torn_hub_link h p q

/-- What a move does to the links and to the holder of the role. -/
inductive LinkMove (c : Instr) (h g : Hub) : Prop
  | keeps (links : ∀ q, LinkKeeps (h.link q) (g.link q)) (holder : g.config.holder = h.config.holder)
  | role (q : Port) (links : g.links = h.links) (holder : g.config.holder = some q)
      (heard : c = .claim q ∨ (h.link q).state = .up)
  | torn (p : Port) (same : g = h.teardown p)

theorem LinkMove.same {c : Instr} {h g : Hub} (links : g.links = h.links) (holder : g.config.holder = h.config.holder) :
    LinkMove c h g := .keeps (links_keep links) holder

theorem LinkMove.work {c : Instr} {h g : Hub} (work : WorkOnly h g) (links : g.links = h.links) : LinkMove c h g :=
  .same links work.stores.holder

theorem Act.link_move {c : Instr} {h g : Hub} (act : Act c h g) : LinkMove c h g := by
  cases act with
  | admits data passes => exact .same (want_links _ _) (stores_want _ _).holder
  | @take w id fresh free unblocked place =>
    refine .keeps ?_ (work_place_take h id w).stores.holder
    unfold Hub.placeTake
    dsimp only
    split
    · exact (still_answer ((h.occupySlot id w).startLease id w.duration) w.port _ place).links
    · exact links_keep rfl
  | leave slot held granted => exact .work (work_leave _ _) (leave_links h _)
  | want => exact .same (want_links h _) (stores_want h _).holder
  | @wake p tag fresh => exact .same (want_links h p) (stores_want h p).holder
  | commit fresh outside unchanged passes =>
    exact .same (commit_aborts_links h _ _) (work_commit_aborts h _ _).stores.holder
  | role command heard => exact .role _ rfl rfl heard
  | hubReset fresh outside unchanged => exact .same (discard_links h) (work_discard h).stores.holder
  | @placeReply p r rest reply head owner =>
    cases r with
    | entry tag i => exact .same (freed_links _ _) (work_free _ _).stores.holder
    | _ => exact .same rfl rfl
  | teardown command => exact .torn _ rfl
  | completeRead command flying kind served =>
    exact .same (completes_of_read flying served).links (work_complete_burst _ _ _).stores.holder
  | completeWrite command flying kind served =>
    exact .same (completes_of_write flying served).links (work_complete_burst _ _ _).stores.holder
  | leavingEnds flying outside leaving unchanged =>
    rw [become_serving_eq]
    exact .same rfl rfl
  | bringupEnds flying inside =>
    rw [end_bringup_eq]
    split <;> exact .same rfl rfl
  | waitEnds found => exact .same (scan_links _) (work_scan _).stores.holder
  | grantingEnds found => exact .same (leave_links h _) (work_leave h _).stores.holder
  | copy command pending idle out => exact .same (commit_aborts_links h _ _) (work_commit_aborts h _ _).stores.holder
  | _ => exact .same rfl rfl

/-! ### Replay lists (R172 to R175) -/

theorem torn_link_order (h : Hub) (p : Port) : LinkOrder (tornLink h p) :=
  ⟨consecutive_nil _, fun _ => ⟨rfl, rfl⟩, fun _ => rfl⟩

theorem link_order_act {c : Instr} {h g : Hub} (act : Act c h g) (order : ∀ q, LinkOrder (h.link q)) (q : Port) :
    LinkOrder (g.link q) := by
  cases act.link_move with
  | keeps links holder => exact (links q).order (order q)
  | role p links holder heard => exact (links_keep links q).order (order q)
  | torn p same =>
    rw [same, torn_link]
    split
    · exact torn_link_order h p
    · exact order q

theorem link_law_kept : KeptByEveryStep LinkLaw := by
  intro s t law e
  rcases step_effect e with ⟨_, links⟩ | ⟨n, up | low⟩ | ⟨c, g, ⟨k, k', first, act, last⟩, _, settled⟩
  · intro p
    rw [show t.hub.link p = s.hub.link p from congrArg (fun q => q.get p) links]
    exact law p
  · exact up ▸ power_up_link_law n
  · rw [low]
    intro p
    rw [show (Hub.inReset n).link p = Link.down from quad_get_all _ _]
    simp [Link.down]
  · rw [settled, link_law_iff]
    intro p
    have order : LinkOrder (g.link p) :=
      (last.links p).order (link_order_act act (fun q => (first.links q).order ((link_law_iff _).mp law q).1) p)
    rw [settle_link]
    exact ⟨(LinkKeeps.items (room_timed_items (g.link p) g.now)).order order, room_timed_order order g.now⟩

/-! ### The role (R116) -/

theorem role_law_keeps {h g : Hub} (links : ∀ q, LinkKeeps (h.link q) (g.link q)) (holder : g.config.holder = h.config.holder)
    (law : RoleLaw h) : RoleLaw g :=
  ⟨fun p held => (links p).up (law.1 p (holder.symm.trans held)), fun p => (links p).empty (law.2 p)⟩

theorem role_law_act {c : Instr} {h g : Hub} (act : Act c h g) (law : RoleLaw h)
    (claimed : ∀ p, c = .claim p → (h.link p).state = .up) : RoleLaw g := by
  cases act.link_move with
  | keeps links holder => exact role_law_keeps links holder law
  | role q links holder heard =>
    refine ⟨fun p held => (links_keep links p).up ?_, fun p => (links_keep links p).empty (law.2 p)⟩
    cases holder.symm.trans held
    exact heard.elim (claimed q) id
  | torn q same =>
    obtain ⟨u, ms, torn, _⟩ := teardown_units h q
    have holder (p : Port) (held : g.config.holder = some p) : p ≠ q ∧ h.config.holder = some p := by
      rw [same, torn] at held
      simp only [tornConfig] at held
      split at held
      · cases held
      · next other => exact ⟨fun own => other (own ▸ held), held⟩
    refine ⟨fun p held => ?_, fun p => ?_⟩
    · obtain ⟨other, held'⟩ := holder p held
      rw [same, torn_link, if_neg other]
      exact law.1 p held'
    · rw [same, torn_link]
      split
      · exact fun _ => rfl
      · exact law.2 p

theorem Still.role_law {h g : Hub} (still : Still h g) (law : RoleLaw h) : RoleLaw g :=
  role_law_keeps still.links still.stores.holder law

theorem role_law_settle {h : Hub} (law : RoleLaw h) : RoleLaw h.settle :=
  role_law_keeps (fun p => by rw [settle_link]; exact .items (room_timed_items _ _)) (stores_settle h).holder law

theorem role_law_kept : KeptByEveryStep RoleLaw := by
  intro s t law e
  rcases step_effect e with ⟨quiet, links⟩ | ⟨n, up | low⟩ | ⟨c, g, ⟨k, k', first, act, last⟩, claimed, settled⟩
  · exact role_law_keeps (links_keep links) quiet.stores.holder law
  · rw [up]
    exact ⟨fun p held => (by cases held), fun p _ => by rw [power_up_link]; rfl⟩
  · rw [low]
    exact ⟨fun p held => (by cases held), fun p _ => by rw [show (Hub.inReset n).link p = Link.down from quad_get_all _ _]; rfl⟩
  · rw [settled]
    refine role_law_settle (last.role_law (role_law_act act (first.role_law law) fun p claims => (first.links p).up ?_))
    by_contra down
    exact claimed p claims (law.2 p down)

end Sys2Proof.Safety
end

section
/-! SUPPORT. A proof that every step keeps the lists within their sizes, and the statement on it. -/

namespace Sys2Proof.Safety

open Sys2Proof.Machine

/-! ### Fences and waiting requests -/

/-- No port has more fences, and no more requests wait. -/
structure Sizes (h g : Hub) : Prop where
  fences : ∀ p, (g.layer p).fences.length ≤ (h.layer p).fences.length
  waits : g.leases.waits.length ≤ h.leases.waits.length

theorem Sizes.trans {h k g : Hub} (a : Sizes h k) (b : Sizes k g) : Sizes h g :=
  ⟨fun p => (b.fences p).trans (a.fences p), b.waits.trans a.waits⟩

/-- The later change first. -/
theorem Sizes.after {h k g : Hub} (b : Sizes k g) (a : Sizes h k) : Sizes h g := a.trans b

theorem Sizes.same {h g : Hub} (messages : g.messages = h.messages) (leases : g.leases = h.leases) : Sizes h g :=
  ⟨fun p => by rw [Hub.layer, Hub.layer, messages], by rw [leases]⟩

theorem Flow.fence_count {m m' : MessageLayer} {paid : Multiset Byte} (flow : Flow m m' paid) :
    m'.fences.length = m.fences.length := by
  have lengths := congrArg List.length flow.fences
  rwa [List.length_map, List.length_map] at lengths

theorem LeaseFlow.sizes {h g : Hub} (flows : ∀ p, LeaseFlow h g p) (waits : g.leases.waits.length ≤ h.leases.waits.length) :
    Sizes h g := by
  refine ⟨fun p => ?_, waits⟩
  obtain ⟨_, flow, _⟩ := flows p
  exact flow.fence_count.le

theorem Quiet.sizes {h g : Hub} (quiet : Quiet h g) : Sizes h g :=
  ⟨fun p => by rw [(quiet.layers p).2.2], by rw [quiet.slots.2]⟩

theorem sizes_on_messages (h : Hub) (p : Port) {f : MessageLayer → MessageLayer}
    (fewer : ∀ m, (f m).fences.length ≤ m.fences.length) : Sizes h (h.onMessages p f) := by
  refine ⟨fun q => ?_, le_refl _⟩
  rw [Hub.onMessages_layer]
  split
  · next own =>
    rw [own]
    exact fewer _
  · exact le_refl _

theorem sizes_add_tag (h : Hub) (p : Port) (tag : Byte) : Sizes h (h.addTag p tag) := sizes_on_messages h p fun _ => le_refl _

theorem sizes_defer (h : Hub) (p : Port) (r : PendingReply) : Sizes h (h.defer p r) := sizes_on_messages h p fun _ => le_refl _

theorem sizes_want (h : Hub) (p : Port) : Sizes h (h.wantMemory p) := by
  obtain ⟨c, r, u, same, _⟩ := want_memory_frame h p
  rw [same]
  exact .same rfl rfl

theorem sizes_scan (h : Hub) : Sizes h h.scanWaits := LeaseFlow.sizes (flow_scan h) (scan_waits_length h)

theorem sizes_leave (h : Hub) (id : LeaseId) : Sizes h (h.leaseLeaves id) := .after (sizes_scan _) ⟨fun _ => le_refl _, le_refl _⟩

theorem sizes_grants (h : Hub) (ids : List LeaseId) : Sizes h (ids.foldl Hub.grantIfDrained h) :=
  LeaseFlow.sizes (flow_grants h ids) (congrArg List.length (grants_waits h ids)).le

theorem sizes_freed (h : Hub) (gone : List Index) : Sizes h (h.freeEntries gone) :=
  LeaseFlow.sizes (flow_freed h gone) (congrArg List.length (freed_waits h gone)).le

theorem sizes_served (h : Hub) : Sizes h (served h) := ⟨fun p => by rw [served_layer]; rfl, le_refl _⟩

theorem sizes_aborted (h : Hub) : Sizes h h.abortAnswered :=
  ⟨fun p => by rw [abort_answered_layer]; exact Nat.zero_le _, (congrArg List.length (agree_abort_answered h).2).le⟩

theorem sizes_emptied (h : Hub) : Sizes h h.emptyLeases := by
  obtain ⟨ms, same, layers⟩ := emptied h
  rw [same]
  exact ⟨fun p => by rw [show Hub.layer { h with messages := ms, leases := emptiedUnit h.leases } p = _ from layers p]; rfl,
    Nat.zero_le _⟩

theorem sizes_commit_aborts (h : Hub) (abort geometry : Bool) : Sizes h (h.commitAborts abort geometry) := by
  obtain ⟨both, empties, nothing, aborts⟩ := commit_aborts_eq h
  cases abort <;> cases geometry
  · rw [nothing]
    exact .same rfl rfl
  · rw [empties]
    exact sizes_emptied h
  · rw [aborts]
    exact (sizes_aborted h).trans (sizes_grants _ _)
  · rw [both]
    exact (sizes_aborted h).trans (sizes_emptied _)

theorem sizes_discard (h : Hub) : Sizes h h.discardWork :=
  ⟨fun p => by rw [discard_work_layer]; exact Nat.zero_le _, by rw [discard_work_waits]; exact Nat.zero_le _⟩

theorem sizes_place_take (h : Hub) (id : LeaseId) (w : Waiting) : Sizes h (h.placeTake id w) := by
  rcases place_take_cases h id w with ⟨_, quiet⟩ | ⟨_, same⟩
  · exact quiet.sizes.after ⟨fun _ => le_refl _, le_refl _⟩
  · rw [same]
    exact (sizes_add_tag _ _ _).after ⟨fun _ => le_refl _, le_refl _⟩

theorem sizes_teardown (h : Hub) (p : Port) : Sizes h (h.teardown p) := by
  refine ⟨fun q => ?_, ?_⟩
  · by_cases own : q = p
    · rw [own, torn_layer_eq]
      exact Nat.zero_le _
    · obtain ⟨_, _, _, _, fences, _⟩ := other_layer_kept (h := h) own
      have lengths := congrArg List.length fences
      rw [List.length_map, List.length_map] at lengths
      exact lengths.le
  · obtain ⟨u, ms, torn, released, _⟩ := teardown_units h p
    rw [show (h.teardown p).leases = (portReleased h p).leases by rw [torn]; exact released]
    refine ((sizes_scan (portRechecked h p)).trans (sizes_grants _ _)).waits.trans ?_
    rw [rechecked_waits]
    exact List.length_filter_le _ _

theorem sizes_outcome (m : Hub) (i : Index) (f : Entry) : Sizes m (burstOutcome m i f) := by
  obtain mark | ⟨kind, mark⟩ := Option.eq_none_or_eq_some f.aborting
  · rw [outcome_unmarked m i mark]
    split
    · refine ⟨fun p => ?_, le_refl _⟩
      rw [release_layer, (Flow.unwatch _ _).fence_count]
      exact (sizes_defer (entryPut m i { f with phase := .done }) f.port (.entry f.tag i)).fences p
    · split <;> exact .same rfl rfl
  · rw [outcome_aborting m i mark]
    refine .after (sizes_freed _ _) ?_
    cases kind with
    | answered =>
      exact (sizes_on_messages (entryPut m i f) f.port (f := fun n => { n with replies := answered n.replies (f.tag, f.wordsDone) })
        fun _ => le_refl _).after (.same rfl rfl)
    | silent =>
      exact (sizes_on_messages (entryPut m i f) f.port (f := fun n => { n with tags := n.tags.filter (fun t => t != f.tag) })
        fun _ => le_refl _).after (.same rfl rfl)
    | torn => exact .same rfl rfl

theorem Completes.sizes {h g : Hub} (completes : Completes h g) : Sizes h g := by
  obtain ⟨x, e, f, d, c, b, _, _, _, _, rfl⟩ := completes
  exact (sizes_outcome _ _ _).after (.same rfl rfl)

/-- The fences of a port are at most 4, and at most 8 requests wait (R20, R81). -/
def WorkBounds (h : Hub) : Prop := (∀ p, (h.layer p).fences.length ≤ 4) ∧ h.leases.waits.length ≤ 8

theorem Sizes.bounds {h g : Hub} (sizes : Sizes h g) (bounds : WorkBounds h) : WorkBounds g :=
  ⟨fun p => (sizes.fences p).trans (bounds.1 p), sizes.waits.trans bounds.2⟩

theorem work_bounds_act {c : Instr} {h g : Hub} (act : Act c h g) (bounds : WorkBounds h) : WorkBounds g := by
  cases act with
  | admits data passes =>
    exact ((sizes_want _ _).after ((sizes_add_tag _ _ _).after ⟨fun _ => le_refl _, le_refl _⟩)).bounds bounds
  | @fence p tag fresh room some =>
    refine ⟨fun q => ?_, bounds.2⟩
    rw [add_tag_layer]
    by_cases own : q = p
    · rw [if_pos own, Hub.onMessages_layer, if_pos rfl]
      show (_ ++ [_]).length ≤ 4
      rw [List.length_append]
      exact room
    · rw [if_neg own, Hub.onMessages_layer, if_neg own]
      exact bounds.1 q
  | @wait w fresh room blocked =>
    refine (sizes_add_tag _ _ _).bounds ⟨bounds.1, ?_⟩
    show (h.leases.waits ++ [w]).length ≤ 8
    rw [List.length_append]
    exact room
  | take fresh free unblocked place => exact (sizes_place_take h _ _).bounds bounds
  | leave slot held granted => exact (sizes_leave h _).bounds bounds
  | want => exact (sizes_want h _).bounds bounds
  | @wake p tag fresh => exact ((sizes_want h p).trans ((sizes_add_tag _ p tag).trans (.same rfl rfl))).bounds bounds
  | commit fresh outside unchanged passes =>
    exact ((sizes_commit_aborts h _ _).trans ((sizes_add_tag _ _ _).after (.same rfl rfl))).bounds bounds
  | hubReset fresh outside unchanged => exact ((sizes_discard h).trans ((sizes_add_tag _ _ _).after (.same rfl rfl))).bounds bounds
  | @placeReply p r rest reply head owner =>
    have gone : Sizes h (headGone h p r.tag rest) := sizes_on_messages h p fun _ => le_refl _
    cases r with
    | entry tag i =>
      have counted : Sizes (headGone h p tag rest) ((headGone h p tag rest).onMessages p (fun m => { m with completed := rise32 m.completed })) :=
        sizes_on_messages _ p fun _ => le_refl _
      exact (gone.trans (counted.trans (sizes_freed _ [i]))).bounds bounds
    | fence tag =>
      have left : Sizes (headGone h p tag rest)
          ((headGone h p tag rest).onMessages p (fun m => { m with fences := m.fences.filter (fun f => f.tag != tag) })) :=
        sizes_on_messages _ p fun _ => List.length_filter_le _ _
      exact (gone.trans (left.trans (.same rfl rfl))).bounds bounds
    | _ => exact gone.bounds bounds
  | teardown command => exact (sizes_teardown h _).bounds bounds
  | completeRead command flying kind served => exact (completes_of_read flying served).sizes.bounds bounds
  | completeWrite command flying kind served => exact (completes_of_write flying served).sizes.bounds bounds
  | leavingEnds flying outside leaving unchanged =>
    rw [become_serving_eq]
    exact ((sizes_served _).after (.same rfl rfl)).bounds bounds
  | @bringupEnds t r flying inside =>
    have ended : Sizes h ((served (bringupOver (upkeepPaid h t))).notifyUp .channelState Channel.serving.code) :=
      (quiet_notify_up _ _ _).sizes.after ((sizes_served _).after (.same rfl rfl))
    rw [end_bringup_eq]
    split
    · exact ended.bounds bounds
    · exact (ended.trans (sizes_defer _ _ _)).bounds bounds
  | @waitEnds p tag w found =>
    exact ((sizes_scan _).after (sizes_defer _ _ _)).bounds ⟨bounds.1, (List.length_filter_le _ _).trans bounds.2⟩
  | grantingEnds found => exact ((sizes_leave h _).trans (sizes_defer _ _ _)).bounds bounds
  | copy command pending idle out => exact ((sizes_commit_aborts h true _).trans (.same rfl rfl)).bounds bounds
  | @reset p tag torn ms command pending idle out layers =>
    refine ⟨fun q => ?_, Nat.zero_le _⟩
    rw [show (resetHub h ms).layer q = resetLayer h p tag torn q from layers q]
    exact Nat.zero_le _
  | _ => exact bounds

/-! ### Bounds -/

theorem bounds_law_iff (h : Hub) : BoundsLaw h ↔ (∀ p, LinkBounds (h.link p)) ∧ WorkBounds h :=
  ⟨fun law => ⟨fun p => ⟨(law.1 p).1, (law.1 p).2.1, (law.1 p).2.2.1, (law.1 p).2.2.2.1⟩, fun p => (law.1 p).2.2.2.2, law.2⟩,
    fun law => ⟨fun p => ⟨(law.1 p).1, (law.1 p).2.1, (law.1 p).2.2.1, (law.1 p).2.2.2, law.2.1 p⟩, law.2.2⟩⟩

theorem link_bounds_act {c : Instr} {h g : Hub} (act : Act c h g) (bounds : ∀ q, LinkBounds (h.link q)) (q : Port) :
    LinkBounds (g.link q) := by
  cases act.link_move with
  | keeps links holder => exact (links q).bounds (bounds q)
  | role p links holder heard => exact (links_keep links q).bounds (bounds q)
  | torn p same =>
    rw [same, torn_link]
    split
    · exact ⟨Nat.zero_le _, Nat.zero_le _, Nat.zero_le _, Nat.zero_le _⟩
    · exact bounds q

theorem sizes_settle (h : Hub) : Sizes h h.settle := by
  refine ⟨fun p => ?_, by rw [settle_leases]⟩
  rcases settle_layers h with ⟨_, same⟩ | ⟨_, woken⟩
  · rw [same]
  · rw [woken]
    exact le_refl _

theorem bounds_law_kept : KeptByEveryStep BoundsLaw := by
  intro s t law e
  rw [bounds_law_iff] at law ⊢
  obtain ⟨onLinks, work⟩ := law
  rcases step_effect e with ⟨quiet, links⟩ | ⟨n, up | low⟩ | ⟨c, g, ⟨k, k', first, act, last⟩, _, settled⟩
  · exact ⟨fun p => (links_keep links p).bounds (onLinks p), quiet.sizes.bounds work⟩
  · rw [up]
    refine ⟨fun p => ?_, fun p => ?_, Nat.zero_le _⟩
    · rw [power_up_link]
      exact ⟨Nat.zero_le _, Nat.zero_le _, Nat.zero_le _, Nat.zero_le _⟩
    · rw [power_up_layer]
      exact Nat.zero_le _
  · rw [low]
    refine ⟨fun p => ?_, fun p => ?_, Nat.zero_le _⟩
    · rw [show (Hub.inReset n).link p = Link.down from quad_get_all _ _]
      exact ⟨Nat.zero_le _, Nat.zero_le _, Nat.zero_le _, Nat.zero_le _⟩
    · rw [show (Hub.inReset n).layer p = MessageLayer.powerUp from quad_get_all _ _]
      exact Nat.zero_le _
  · rw [settled]
    refine ⟨fun p => ?_, (sizes_settle g).bounds (last.toQuiet.sizes.bounds (work_bounds_act act (first.toQuiet.sizes.bounds work)))⟩
    rw [settle_link]
    exact (LinkKeeps.items (room_timed_items _ _)).bounds ((last.links p).bounds
      (link_bounds_act act (fun q => (first.links q).bounds (onLinks q)) p))

/-- Settles O54, law by law. -/
theorem stepsKeepMemoryFormRoleAndListSizes : Obligations.StepsKeepMemoryFormRoleAndListSizes :=
  ⟨memory_law_kept, role_law_kept, bounds_law_kept, link_law_kept⟩

end Sys2Proof.Safety
end

section
/-! SUPPORT. The moves by what they do to the bring-up record and the pending change, and a proof that a record stands only in
BRINGUP, where no change is pending. -/

namespace Sys2Proof.Safety

open Sys2Proof.Machine

/-- A bring-up record stands only in BRINGUP, where no change is pending (R125, R129, R130). -/
def RecordInside (h : Hub) : Prop := h.config.bringup ≠ none → h.channel = .bringup ∧ h.config.change = none

/-- What a move does to the bring-up record and the pending change. -/
inductive RecordMove (h g : Hub) : Prop
  | keeps (record : h.config.bringup = none → g.config.bringup = none) (change : h.config.change = none → g.config.change = none)
      (channel : h.channel = .bringup → g.channel = .bringup)
  | ends (absent : g.config.bringup = none) (lands : g.scheduler.flight = none)
  | outside (outside : ¬ (h.channel = .bringup ∧ h.config.change = none)) (record : g.config.bringup = h.config.bringup)
      (lands : h.channel = .bringup → g.scheduler.flight = none)
  | begins (channel : g.channel = .bringup) (unchanged : g.config.change = none)

theorem RecordMove.of_eq {h g : Hub} (config : g.config = h.config) (channel : h.channel = .bringup → g.channel = .bringup) :
    RecordMove h g := .keeps (by rw [config]; exact id) (by rw [config]; exact id) channel

theorem WorkOnly.record {h g : Hub} (work : WorkOnly h g) : RecordMove h g := .of_eq work.config (work.channel ▸ id)

/-- A port that asks for the memory leaves BRINGUP as it is. -/
theorem want_memory_bringup {h : Hub} (p : Port) (inside : h.channel = .bringup) : (h.wantMemory p).channel = .bringup := by
  rcases want_memory_channel h p with ⟨same, _⟩ | ⟨resting, _⟩
  · rw [same, inside]
  · rw [resting] at inside
    cases inside

/-- RETAIN_ENTER is not ready in BRINGUP. -/
theorem retain_enter_outside {h : Hub} (items : ItemsLaw h) (ready : h.retainEnterReady = true) : h.channel ≠ .bringup := by
  intro inside
  obtain ⟨wanted, _⟩ := (retain_enter_ready_iff h).mp ready
  rw [(rest_table items).2.2.2.2 (by rw [inside]; exact Channel.noConfusion) (.inl (by rw [inside]; exact Channel.noConfusion))]
    at wanted
  cases wanted

theorem Act.record_move {c : Instr} {h g : Hub} (items : ItemsLaw h) (act : Act c h g) : RecordMove h g := by
  cases act with
  | @admits p kind tag words reserved addr a i data passes =>
    exact .of_eq (want_memory_config _ _).1
      (want_memory_bringup (h := { h with table := h.table ++ [admitted h p kind tag words a i data] }.addTag p tag) p)
  | take fresh free unblocked => exact (work_place_take _ _ _).record
  | leave slot held granted => exact (work_leave _ _).record
  | want => exact .of_eq (want_memory_config _ _).1 (want_memory_bringup _)
  | wake fresh => exact .of_eq (want_memory_config _ _).1 (want_memory_bringup _)
  | commit fresh outside unchanged passes =>
    exact .outside (fun inside => outside inside.1) (congrArg ConfigUnit.bringup (work_commit_aborts _ _ _).config :)
      fun inside => absurd inside outside
  | hubReset fresh outside unchanged =>
    exact .outside (fun inside => outside inside.1) (congrArg ConfigUnit.bringup (work_discard h).config :)
      fun inside => absurd inside outside
  | placeReply head owner => exact .of_eq (work_placed _ _ _).config fun inside => (work_placed _ _ _).channel.trans inside
  | @teardown p command =>
    obtain ⟨u, ms, torn, _⟩ := teardown_units h p
    rw [torn]
    refine .keeps (fun absent => ?_) (fun unchanged => ?_) (fun inside => (work_rechecked h p).channel.trans inside)
    · exact congrArg (Option.map _) absent
    · exact congrArg (Option.map _) unchanged
  | completeRead command flying kind served =>
    exact .of_eq (work_complete_burst _ _ _).config fun inside => (work_complete_burst _ _ _).channel.trans inside
  | completeWrite command flying kind served =>
    exact .of_eq (work_complete_burst (writeDone h _) _ _).config fun inside =>
      (work_complete_burst (writeDone h _) _ _).channel.trans inside
  | allClosed flying => exact .keeps (congrArg (Option.map _)) id id
  | modeLoaded flying => exact .keeps (congrArg (Option.map _)) id id
  | leavingEnds flying outside leaving unchanged =>
    rw [become_serving_eq]
    exact .ends outside rfl
  | bringupUpkeep flying inside => exact .keeps (fun absent => by rw [absent] at inside; cases inside) id id
  | bringupEnds flying inside =>
    rw [end_bringup_eq]
    split <;> exact .ends rfl rfl
  | retainEnter ready => exact .of_eq rfl fun inside => absurd inside (retain_enter_outside items ready)
  | waitEnds found => exact .of_eq (work_scan _).config fun inside => (work_scan _).channel.trans inside
  | grantingEnds found => exact .of_eq (work_leave _ _).config fun inside => (work_leave _ _).channel.trans inside
  | settleEnds record phase => exact .keeps (fun absent => by rw [absent] at record; cases record) id id
  | copy command pending idle out => exact .begins rfl rfl
  | reset command pending idle out layers =>
    exact .outside (fun inside => by rw [inside.2] at pending; cases pending) rfl fun _ => rfl
  | stage command unchanged => exact .keeps id id id
  | role command heard => exact .keeps id id id
  | _ => exact .of_eq rfl id

theorem RecordMove.inside {h g : Hub} (law : RecordInside h) (move : RecordMove h g) : RecordInside g := by
  intro present
  cases move with
  | keeps record change channel =>
    obtain ⟨inside, unchanged⟩ := law fun absent => present (record absent)
    exact ⟨channel inside, change unchanged⟩
  | ends absent lands => exact absurd absent present
  | outside outside record lands => exact absurd (law (record ▸ present)) outside
  | begins channel unchanged => exact ⟨channel, unchanged⟩

/-- A move leaves BRINGUP only with no channel-wide command in flight. -/
theorem RecordMove.stays {h g : Hub} (move : RecordMove h g) (inside : h.channel = .bringup)
    (flying : g.scheduler.flight ≠ none) : g.channel = .bringup := by
  cases move with
  | keeps record change channel => exact channel inside
  | ends absent lands => exact absurd lands flying
  | outside outside record lands => exact absurd (lands inside) flying
  | begins channel unchanged => exact channel

theorem record_inside_quiet {h g : Hub} (quiet : Quiet h g) (law : RecordInside h) : RecordInside g := by
  rw [RecordInside, quiet.config, quiet.channel]
  exact law

theorem settle_bringup (h : Hub) : h.settle.config.bringup = h.config.bringup := by
  obtain ⟨c, ms, t, r, a, i, j, f, same, _⟩ := settle_frame h
  rw [same]

/-- The end of an event leaves BRINGUP as it is. -/
theorem settle_in_bringup {h : Hub} (inside : h.channel = .bringup) : h.settle.channel = .bringup := by
  obtain ⟨⟨channel, _⟩, _⟩ := settle_parts h
  rw [channel]
  rcases evaluate_cases h with ⟨_, _, same⟩ | ⟨entering, _⟩ | ⟨⟨entering, _⟩, _⟩
  · rw [same]
    show (if h.channel = .serving ∧ h.restWanted = true then Channel.entering else h.channel) = .bringup
    rw [if_neg (by rw [inside]; exact fun both => Channel.noConfusion both.1), inside]
  · rw [entering] at inside
    cases inside
  · rw [entering] at inside
    cases inside

theorem record_inside_settle {h : Hub} (law : RecordInside h) : BringupLaw h.settle := by
  refine ⟨settle_items_law h, fun present => ?_⟩
  rw [settle_bringup] at present
  obtain ⟨inside, unchanged⟩ := law present
  exact ⟨settle_in_bringup inside, (settle_change h).trans unchanged⟩

theorem bringup_law_quiet {h g : Hub} (quiet : Quiet h g) (law : BringupLaw h) : BringupLaw g :=
  ⟨items_law_quiet quiet law.1, record_inside_quiet quiet law.2⟩

theorem power_up_bringup_law (n : Nat) : BringupLaw (Hub.powerUp n) := ⟨power_up_items_law n, fun present => absurd rfl present⟩

theorem bringup_law_kept : KeptByEveryStep BringupLaw :=
  kept_by_moves (middle := RecordInside) bringup_law_quiet (fun law act => (act.record_move law.1).inside law.2)
    record_inside_quiet record_inside_settle power_up_bringup_law fun n => power_up_bringup_law n

end Sys2Proof.Safety
end

section
/-! SUPPORT. A proof that the burst in flight is to a bank OPEN at its entry's row. -/

namespace Sys2Proof.Safety

open Sys2Proof.Machine

/-! ### ALL_CLOSE (R35, R127) -/

/-- No burst is in flight with an ALL_CLOSE, which stands only in BRINGUP. -/
def CloseInside (h : Hub) : Prop :=
  h.scheduler.inFlight .allClose = true → h.channel = .bringup ∧ h.scheduler.burst = none

theorem flight_of_close {u : Scheduler} {c : ChannelCommand} (flying : u.inFlight c = true) : u.flight ≠ none := by
  intro free
  rw [in_flight_none free] at flying
  cases flying

/-- An ALL_CLOSE that is ready is asked for by the bring-up. -/
theorem all_close_inside {h : Hub} (law : BringupLaw h) (ready : h.allCloseReady = true) : h.channel = .bringup := by
  refine (law.2 fun absent => ?_).1
  obtain ⟨wanted, _⟩ := (all_close_ready_iff h).mp ready
  rw [(bringup_table law.1).1 absent] at wanted
  cases wanted

theorem close_inside_moves {c : Instr} {h g : Hub} (bringup : BringupLaw h) (law : CloseInside h) (act : Act c h g) :
    CloseInside g := by
  intro flying
  have stays := (act.record_move bringup.1).stays (h := h) (g := g)
  have landed (free : g.scheduler.flight = none) : g.channel = .bringup ∧ g.scheduler.burst = none :=
    absurd free (flight_of_close flying)
  have kept (flight : g.scheduler.flight = h.scheduler.flight) (burst : g.scheduler.burst = h.scheduler.burst) :
      g.channel = .bringup ∧ g.scheduler.burst = none := by
    obtain ⟨inside, free⟩ := law ((in_flight_congr flight _).symm.trans flying)
    exact ⟨stays inside (flight_of_close flying), burst.trans free⟩
  cases act.lane_move with
  | same lanes => exact kept lanes.flight lanes.burst
  | rowOpen serves f same => exact kept (by rw [same]) (by rw [same])
  | rowClose serves f same => exact kept (by rw [same]) (by rw [same])
  | bankOpens known opening f same => exact kept (by rw [same]) (by rw [same])
  | bankCloses known closing f closes same => exact kept (by rw [same]) (by rw [same])
  | burst granted flies flight rows =>
    obtain ⟨inside, _⟩ := law ((in_flight_congr flight _).symm.trans flying)
    rw [(granted_to granted).serving] at inside
    cases inside
  | burstEnds free flight rows =>
    obtain ⟨inside, _⟩ := law ((in_flight_congr flight _).symm.trans flying)
    exact ⟨stays inside (flight_of_close flying), free⟩
  | @launch d t ready same =>
    have issued : d = .allClose := by
      rw [in_flight_some (u := g.scheduler) (by rw [same]) .allClose] at flying
      exact beq_iff_eq.mp flying
    subst issued
    refine ⟨stays (all_close_inside bringup ready) (flight_of_close flying), ?_⟩
    rw [same]
    exact ((all_close_ready_iff h).mp ready).2.1
  | landed flies same => exact landed (by rw [same])
  | allClosed flies n same => exact landed (by rw [same])
  | reset same => exact landed (by rw [same]; rfl)

/-! ### The bank of the burst in flight (R31, R46) -/

/-- What places an entry in the memory. -/
def placeOf (e : Entry) : Index × Nat × Nat := (e.index, e.bank, e.row)

theorem place_lasts : Lasting placeOf := fun _ _ _ _ _ _ _ _ _ => rfl

/-- An entry that was in the table has the bank and the row that it had. -/
theorem TableMove.place {h g : Hub} (law : IndexLaw h) (move : TableMove h g) {e e' : Entry} (before : e ∈ h.table)
    (after : e' ∈ g.table) (index : e'.index = e.index) : e'.bank = e.bank ∧ e'.row = e.row := by
  have known (listed : placeOf e' ∈ h.table.map placeOf) : e'.bank = e.bank ∧ e'.row = e.row := by
    obtain ⟨z, inside, same⟩ := List.mem_map.mp listed
    obtain ⟨index', bank, row⟩ : z.index = e'.index ∧ z.bank = e'.bank ∧ z.row = e'.row := by
      simpa [placeOf] using same
    rw [entry_unique law inside before (index'.trans index)] at bank row
    exact ⟨bank.symm, row.symm⟩
  rcases move.lasting place_lasts law with sub | ⟨p, kind, tag, words, reserved, addr, a, i, data, passes, same⟩
  · exact known (sub.subset (List.mem_map_of_mem after))
  · rw [same, List.mem_append, List.mem_singleton] at after
    rcases after with old | rfl
    · exact known (List.mem_map_of_mem old)
    · obtain ⟨_, _, free, _⟩ := admission_fresh passes
      rw [admitted_index] at index
      exact absurd index.symm ((free_index_eq_some_iff.mp free).1 e before)

/-- The bank is OPEN at the row. -/
def RowOpen (u : Scheduler) (b row : Nat) : Prop := ∃ k, u.banks[b]? = some k ∧ k.state = .opened ∧ k.row = some row

theorem row_open_iff (u : Scheduler) (b row : Nat) : RowOpen u b row ↔ (rowsOf u)[b]? = some (.opened, some row) := by
  rw [rowsOf, List.getElem?_map, Option.map_eq_some_iff]
  exact exists_congr fun k => and_congr_right fun _ => Prod.mk.injEq .. ▸ Iff.rfl

theorem RowOpen.congr {u v : Scheduler} {b row : Nat} (rows : rowsOf v = rowsOf u) (opened : RowOpen u b row) :
    RowOpen v b row := by
  rw [row_open_iff] at *
  rwa [rows]

/-- Another bank moves. -/
theorem RowOpen.modify {u v : Scheduler} {b row n : Nat} {f : Bank → Bank} (opened : RowOpen u b row)
    (same : v = { u with banks := u.banks.modify n f }) (other : b ≠ n) : RowOpen v b row := by
  obtain ⟨k, known, rest⟩ := opened
  refine ⟨k, ?_, rest⟩
  rw [same]
  exact (List.getElem?_modify_ne _ _ other.symm).trans known

/-- A bank that is not OPEN is another one. -/
theorem RowOpen.other {u : Scheduler} {b row n : Nat} (opened : RowOpen u b row)
    (moves : ∃ k, u.banks[n]? = some k ∧ k.state ≠ .opened) : b ≠ n := by
  rintro rfl
  obtain ⟨k, known, state, _⟩ := opened
  obtain ⟨k', known', state'⟩ := moves
  cases Option.some.inj (known.symm.trans known')
  exact state' state

/-- A move leaves the bank of the burst in flight OPEN, or starts a burst. -/
theorem LaneMove.row_open {h g : Hub} (move : LaneMove h g) (close : CloseInside h) {x : Burst}
    (flies : g.scheduler.burst = some x) {row : Nat}
    (law : h.scheduler.burst = some x → RowOpen h.scheduler x.bank row)
    (starts : ∀ e, h.grant = some e → x = h.nextBurst e → RowOpen h.scheduler x.bank row) :
    RowOpen g.scheduler x.bank row := by
  cases move with
  | same lanes => exact (law (lanes.burst.symm.trans flies)).congr lanes.rows
  | rowOpen serves f same =>
    obtain ⟨_, k, known, closed⟩ := lane_opens serves
    have opened := law (by rwa [same] at flies)
    exact opened.modify same (opened.other ⟨k, known, by rw [closed]; exact BankState.noConfusion⟩)
  | rowClose serves f same =>
    have flew : h.scheduler.burst = some x := by rwa [same] at flies
    exact (law flew).modify same ((lane_closes serves).2 x flew)
  | bankOpens known opening f same =>
    have opened := law (by rwa [same] at flies)
    exact opened.modify same (opened.other ⟨_, known, by rw [opening]; exact BankState.noConfusion⟩)
  | bankCloses known closing f closes same =>
    have opened := law (by rwa [same] at flies)
    exact opened.modify same (opened.other ⟨_, known, by rw [closing]; exact BankState.noConfusion⟩)
  | burst granted started flight rows =>
    exact (starts _ granted (Option.some.inj (flies.symm.trans started))).congr rows
  | burstEnds free flight rows =>
    rw [free] at flies
    cases flies
  | launch t ready same => exact (law (by rwa [same] at flies)).congr (by rw [same]; rfl)
  | landed flying same => exact (law (by rwa [same] at flies)).congr (by rw [same]; rfl)
  | allClosed flying n same =>
    have flew : h.scheduler.burst = some x := by rwa [same] at flies
    rw [(close (in_flight_some flying _)).2] at flew
    cases flew
  | reset same =>
    rw [same] at flies
    cases flies

/-- A burst in flight in `g` that was not in flight before has just started. -/
theorem LaneMove.burst_before {h g : Hub} (move : LaneMove h g) {x : Burst} (flies : g.scheduler.burst = some x) :
    h.scheduler.burst = some x ∨ ∃ e, h.grant = some e ∧ x = h.nextBurst e := by
  cases move with
  | same lanes => exact .inl (lanes.burst.symm.trans flies)
  | rowOpen serves f same => exact .inl (by rwa [same] at flies)
  | rowClose serves f same => exact .inl (by rwa [same] at flies)
  | bankOpens known opening f same => exact .inl (by rwa [same] at flies)
  | bankCloses known closing f closes same => exact .inl (by rwa [same] at flies)
  | burst granted started flight rows => exact .inr ⟨_, granted, Option.some.inj (flies.symm.trans started)⟩
  | burstEnds free flight rows =>
    rw [free] at flies
    cases flies
  | launch t ready same => exact .inl (by rwa [same] at flies)
  | landed flying same => exact .inl (by rwa [same] at flies)
  | allClosed flying n same => exact .inl (by rwa [same] at flies)
  | reset same =>
    rw [same] at flies
    cases flies

theorem burst_law_moves {c : Instr} {h g : Hub} (entries : EntryLaw h) (bringup : BringupLaw h) (law : BurstLaw h)
    (act : Act c h g) : BurstLaw g := by
  obtain ⟨close, opened⟩ := law
  refine ⟨close_inside_moves bringup close act, fun x flies => ?_⟩
  obtain ⟨e', inside, own, _⟩ := (entry_law_moves entries act).burst x flies
  have place {e : Entry} (before : e ∈ h.table) (index : e.index = x.entry) : e'.bank = e.bank ∧ e'.row = e.row :=
    act.table_move.place entries.indices before inside (own.trans index.symm)
  have at_row : e'.bank = x.bank ∧ RowOpen g.scheduler x.bank e'.row := by
    rcases act.lane_move.burst_before flies with flew | ⟨e, granted, rfl⟩
    · obtain ⟨e, before, index, bank, open_⟩ := opened x flew
      obtain ⟨bank', row⟩ := place before index
      refine ⟨bank'.trans bank, act.lane_move.row_open close flies (fun _ => row ▸ open_) fun z granted _ => ?_⟩
      rw [(granted_to granted).free] at flew
      cases flew
    · obtain ⟨bank', row⟩ := place (granted_to granted).member rfl
      refine ⟨bank', act.lane_move.row_open close flies (fun flew => ?_) fun _ _ _ => row ▸ (granted_to granted).openAt⟩
      rw [(granted_to granted).free] at flew
      cases flew
  exact ⟨e', inside, own, at_row⟩

/-- The laws of the burst in flight look only at the lanes, the channel and what places the entries. -/
theorem burst_law_congr {h g : Hub} (lanes : SameLanes h.scheduler g.scheduler)
    (channel : h.channel = .bringup → g.channel = .bringup) (table : g.table.map placeOf = h.table.map placeOf)
    (law : BurstLaw h) : BurstLaw g := by
  obtain ⟨close, opened⟩ := law
  refine ⟨fun flying => ?_, fun x flies => ?_⟩
  · obtain ⟨inside, free⟩ := close ((in_flight_congr lanes.flight _).symm.trans flying)
    exact ⟨channel inside, lanes.burst.trans free⟩
  · obtain ⟨e, member, index, bank, open_⟩ := opened x (lanes.burst.symm.trans flies)
    obtain ⟨e', inside, same⟩ := List.mem_map.mp (table ▸ List.mem_map_of_mem member)
    obtain ⟨index', bank', row⟩ : e'.index = e.index ∧ e'.bank = e.bank ∧ e'.row = e.row := by simpa [placeOf] using same
    exact ⟨e', inside, index'.trans index, bank'.trans bank, row ▸ RowOpen.congr lanes.rows open_⟩

theorem burst_law_quiet {h g : Hub} (quiet : Quiet h g) (law : BurstLaw h) : BurstLaw g :=
  burst_law_congr quiet.lanes (quiet.channel ▸ id) (by rw [quiet.table]) law

theorem burst_law_settle {h : Hub} (law : BurstLaw h) : BurstLaw h.settle :=
  burst_law_congr (settle_lanes h) settle_in_bringup (place_lasts.settle h) law

theorem burst_law_kept : KeptByEveryStep (fun h => EntryLaw h ∧ BringupLaw h ∧ BurstLaw h) :=
  kept_by_moves (middle := fun h => EntryLaw h ∧ RecordInside h ∧ BurstLaw h)
    (fun quiet law => ⟨entry_law_quiet quiet law.1, bringup_law_quiet quiet law.2.1, burst_law_quiet quiet law.2.2⟩)
    (fun law act => ⟨entry_law_moves law.1 act, (act.record_move law.2.1.1).inside law.2.1.2,
      burst_law_moves law.1 law.2.1 law.2.2 act⟩)
    (fun quiet law => ⟨entry_law_quiet quiet law.1, record_inside_quiet quiet law.2.1, burst_law_quiet quiet law.2.2⟩)
    (fun law => ⟨entry_law_settle law.1, record_inside_settle law.2.1, burst_law_settle law.2.2⟩)
    (fun n => ⟨power_up_entry_law n, power_up_bringup_law n, power_up_burst_law n⟩)
    fun n => ⟨entry_law_same (power_up_entry_law n) rfl rfl (.of_messages rfl), power_up_bringup_law n, power_up_burst_law n⟩

end Sys2Proof.Safety
end

section
/-! SUPPORT. The law of tags, port by port and as multisets, and what keeps it: tags that move between the owners of requests,
tags that join and tags that leave (R156, R158). -/

namespace Sys2Proof.Safety

open Sys2Proof.Machine

/-! ### The law, port by port -/

/-- The tags of the outstanding requests that the other units hold, and no fence and no reply. -/
def heldTags (h : Hub) (p : Port) : Multiset Byte :=
  entryTags h.table p + waitTags h.leases.waits p + grantTags h.leases.slots p + wakeTags h.rest.wakes p +
    changeTags h.config.change p + bringupTags h.config.bringup p

theorem owed_eq (h : Hub) (p : Port) : owed h p = heldTags h p + fenceTags (h.layer p) + ownTags (h.layer p).replies := by
  unfold owed heldTags
  ac_rfl

/-- The outstanding requests of a port have distinct tags, which are its tag set, and its fences agree with their replies. -/
def Tagged (h : Hub) (p : Port) : Prop :=
  (owed h p).Nodup ∧ (∀ t, t ∈ (h.layer p).tags ↔ t ∈ owed h p) ∧ FencesOk (h.layer p)

theorem Tagged.fences_apart {h : Hub} {p : Port} (law : Tagged h p) : ((h.layer p).fences.map Fence.tag).Nodup := by
  refine Multiset.coe_nodup.mp (Multiset.nodup_of_le ?_ law.1)
  rw [owed_eq]
  exact (Multiset.le_add_left _ _).trans (Multiset.le_add_right _ _)

/-! ### What keeps the law -/

/-- Tags move between the owners of requests. -/
theorem Tagged.flow {h g : Hub} {p : Port} {paid : Multiset Byte} (law : Tagged h p)
    (flow : Flow (h.layer p) (g.layer p) paid) (moved : heldTags h p = heldTags g p + paid) : Tagged g p := by
  have fences : fenceTags (g.layer p) = fenceTags (h.layer p) := congrArg (fun ts : List Byte => (ts : Multiset Byte)) flow.fences
  have same : owed g p = owed h p := by
    rw [owed_eq, owed_eq, moved, flow.own, fences]
    ac_rfl
  rw [Tagged, same, flow.tags]
  exact ⟨law.1, law.2.1, flow.agree law.fences_apart law.2.2⟩

/-- A new request's tag joins. -/
theorem Tagged.gain {h g : Hub} {p : Port} {t : Byte} (law : Tagged h p) (fresh : t ∉ (h.layer p).tags)
    (tags : (g.layer p).tags = (h.layer p).tags ++ [t]) (gains : owed g p = owed h p + {t})
    (agree : FencesOk (g.layer p)) : Tagged g p := by
  obtain ⟨apart, same, _⟩ := law
  refine ⟨?_, fun u => ?_, agree⟩
  · rw [gains, Multiset.add_comm, Multiset.singleton_add, Multiset.nodup_cons]
    exact ⟨fun inside => fresh ((same t).mpr inside), apart⟩
  · rw [tags, gains, List.mem_append, List.mem_singleton, Multiset.mem_add, Multiset.mem_singleton, same]

/-- The tags of requests that end leave. -/
theorem Tagged.lose {h g : Hub} {p : Port} {lost : Multiset Byte} (law : Tagged h p)
    (tags : ∀ t, t ∈ (g.layer p).tags ↔ t ∈ (h.layer p).tags ∧ t ∉ lost) (loses : owed h p = owed g p + lost)
    (agree : FencesOk (g.layer p)) : Tagged g p := by
  obtain ⟨apart, same, _⟩ := law
  rw [loses, Multiset.nodup_add] at apart
  obtain ⟨left, _, apart⟩ := apart
  refine ⟨left, fun t => ?_, agree⟩
  rw [tags, same, loses, Multiset.mem_add]
  exact ⟨fun ⟨either, stays⟩ => either.resolve_right stays,
    fun inside => ⟨.inl inside, fun gone => Multiset.disjoint_left.mp apart inside gone⟩⟩

/-- A new request joins the tag set and the owner that holds it. -/
theorem Tagged.added {h g : Hub} {p q : Port} {t : Byte} (law : Tagged h p) (fresh : h.tagInUse q t = false)
    (layer : g.layer p = (h.addTag q t).layer p) (joins : heldTags g p = heldTags h p + tagOf q p t) : Tagged g p := by
  rw [add_tag_layer] at layer
  by_cases own : p = q
  · subst own
    rw [if_pos rfl] at layer
    rw [tagOf, if_pos rfl] at joins
    refine law.gain (t := t) (by simpa [Hub.tagInUse] using fresh) (by rw [layer]) ?_ (by rw [layer]; exact law.2.2)
    rw [owed_eq, owed_eq, layer, joins]
    show heldTags h p + {t} + fenceTags (h.layer p) + ownTags (h.layer p).replies = _
    ac_rfl
  · rw [if_neg own] at layer
    rw [tagOf, if_neg (Ne.symm own), add_zero] at joins
    exact law.flow (paid := 0) (by rw [layer]; exact .refl _) (by rw [joins, add_zero])

/-- Nothing that the law looks at changes. -/
theorem Tagged.same {h g : Hub} {p : Port} (law : Tagged h p) (layer : SameWork (h.layer p) (g.layer p))
    (held : heldTags g p = heldTags h p) : Tagged g p := law.flow (.same layer) (by rw [held, add_zero])

/-! ### The tags of entries -/

/-- The tag of an entry of a port that has a reply to come. -/
def entryTag (p : Port) (e : Entry) : Option Byte := if e.port = p ∧ e.aborting ≠ some .torn then some e.tag else none

theorem entry_tags_eq (t : List Entry) (p : Port) : entryTags t p = (t.filterMap (entryTag p) : List Byte) := by
  unfold entryTags
  congr 1
  induction t with
  | nil => rfl
  | cons e t ih =>
    rw [List.filterMap_cons]
    by_cases counted : e.port = p ∧ e.aborting ≠ some .torn
    · rw [List.filter_cons_of_pos (by simpa using counted), entryTag, if_pos counted, List.map_cons, ih]
    · rw [List.filter_cons_of_neg (by simpa using counted), entryTag, if_neg counted, ih]

theorem entry_tags_congr {t t' : List Entry} {p : Port} (same : t'.map (entryTag p) = t.map (entryTag p)) :
    entryTags t' p = entryTags t p := by
  have as_map (t : List Entry) : t.filterMap (entryTag p) = (t.map (entryTag p)).filterMap id := by
    rw [List.filterMap_map]
    rfl
  rw [entry_tags_eq, entry_tags_eq, as_map, as_map, same]

/-- Holds and promotions do not change the tags. -/
theorem entry_tags_core {t t' : List Entry} (same : t'.map entryCore = t.map entryCore) (p : Port) :
    entryTags t' p = entryTags t p := by
  refine entry_tags_congr ?_
  have as_core (t : List Entry) : t.map (entryTag p) = (t.map entryCore).map (entryTag p) := by
    rw [List.map_map]
    exact List.map_congr_left fun e _ => rfl
  rw [as_core t', as_core t, same]

theorem entry_tags_append (t t' : List Entry) (p : Port) : entryTags (t ++ t') p = entryTags t p + entryTags t' p := by
  rw [entry_tags_eq, entry_tags_eq, entry_tags_eq, List.filterMap_append, ← Multiset.coe_add]

theorem entry_tags_single (e : Entry) (p : Port) :
    entryTags [e] p = if e.port = p ∧ e.aborting ≠ some .torn then {e.tag} else 0 := by
  rw [entry_tags_eq, List.filterMap_cons, entryTag]
  split <;> simp_all

/-- The tags of the entries that stay and of those that leave. -/
theorem entry_tags_split (t : List Entry) (c : Entry → Bool) (p : Port) :
    entryTags t p = entryTags (t.filter c) p + entryTags (t.filter (fun e => !c e)) p := by
  induction t with
  | nil => rfl
  | cons e t ih =>
    rw [show e :: t = [e] ++ t from rfl, entry_tags_append, ih, List.filter_append, List.filter_append, entry_tags_append,
      entry_tags_append]
    cases kept : c e
    · rw [List.filter_cons_of_neg (by simp [kept]), List.filter_cons_of_pos (by simp [kept])]
      simp only [List.filter_nil, show entryTags [] p = 0 from rfl]
      ac_rfl
    · rw [List.filter_cons_of_pos kept, List.filter_cons_of_neg (by simp [kept])]
      simp only [List.filter_nil, show entryTags [] p = 0 from rfl]
      ac_rfl

theorem removed_core (h : Hub) (gone : List Index) : (h.removeEntries gone).table.map entryCore =
    (h.table.filter (fun e => decide (e.index ∉ gone))).map entryCore := by
  rw [remove_entries_eq, Hub.release_table, reorder_core]

theorem freed_core (h : Hub) (gone : List Index) : (h.freeEntries gone).table.map entryCore =
    (h.table.filter (fun e => decide (e.index ∉ gone))).map entryCore := by
  rw [Hub.freeEntries, Hub.grantDrained, grants_table, removed_core]

theorem cleared_core (t : List Entry) : (t.map channelCleared).map entryCore = t.map entryCore := by
  rw [List.map_map]
  exact List.map_congr_left fun e _ => entry_core_promote e _

/-! ### The tags and the pending replies -/

theorem sublist_of_tags {f : PendingReply → Option Byte} (tag : ∀ r t, f r = some t → r.tag = t) (rs : List PendingReply) :
    (rs.filterMap f).Sublist (rs.map PendingReply.tag) := by
  induction rs with
  | nil => exact .slnil
  | cons r rs ih =>
    rw [List.filterMap_cons, List.map_cons]
    cases own : f r with
    | none => exact ih.cons _
    | some t => exact tag r t own ▸ ih.cons_cons _

theorem fence_tag_mem {rs : List PendingReply} {t : Byte} : t ∈ rs.filterMap fenceTag ↔ PendingReply.fence t ∈ rs := by
  rw [List.mem_filterMap]
  constructor
  · rintro ⟨r, inside, same⟩
    cases r <;> cases same
    exact inside
  · exact fun inside => ⟨_, inside, rfl⟩

/-- The tags of the pending replies are those of entries, of fences and of requests that nothing else holds. -/
theorem reply_tags (rs : List PendingReply) : ((rs.map PendingReply.tag : List Byte) : Multiset Byte) =
    ((entryReplies rs).map Prod.fst : List Byte) + (rs.filterMap fenceTag : List Byte) + ownTags rs := by
  induction rs with
  | nil => rfl
  | cons r rs ih =>
    have cons (t : Byte) (ts : List Byte) : ((t :: ts : List Byte) : Multiset Byte) = {t} + (ts : List Byte) := rfl
    rw [List.map_cons, cons, ih]
    cases r with
    | entry t i =>
      show _ = (((t :: (entryReplies rs).map Prod.fst : List Byte) : Multiset Byte)) + _ + ownTags rs
      rw [cons]
      ac_rfl
    | fence t =>
      show _ = _ + ((t :: rs.filterMap fenceTag : List Byte) : Multiset Byte) + ownTags rs
      rw [cons]
      show _ = (((entryReplies rs).map Prod.fst : List Byte) : Multiset Byte) + _ + _
      ac_rfl
    | _ =>
      show _ = (((entryReplies rs).map Prod.fst : List Byte) : Multiset Byte) + (rs.filterMap fenceTag : List Byte) +
        ((_ :: rs.filterMap ownTag : List Byte) : Multiset Byte)
      rw [cons, PendingReply.tag]
      show _ = _ + _ + (_ + ownTags rs)
      ac_rfl

/-- The replies of entries carry tags of entries, each once. -/
theorem entry_reply_tags {h : Hub} {p : Port} (entries : EntryLaw h) (apart : (entryTags h.table p).Nodup) :
    ((((entryReplies (h.layer p).replies).map Prod.fst : List Byte)) : Multiset Byte) ≤ entryTags h.table p := by
  have owner {x : Byte × Index} (listed : x ∈ entryReplies (h.layer p).replies) :
      ∃ e ∈ h.table.filter (fun e => e.port == p && e.aborting != some .torn), e.index = x.2 ∧ e.tag = x.1 := by
    obtain ⟨e, member, index, port, tag, done⟩ := entries.replies p x.1 x.2 (entry_replies_mem.mp listed)
    exact ⟨e, List.mem_filter.mpr ⟨member, by simp [port, done_unmarked entries member done]⟩, index, tag⟩
  have once := entries.once p
  rw [entry_replies_index] at once
  refine (Multiset.le_iff_subset (Multiset.coe_nodup.mpr ?_)).mpr fun t listed => ?_
  · refine List.Nodup.map_on (fun x inX y inY same => ?_) (once.of_map _)
    obtain ⟨a, inA, indexA, tagA⟩ := owner inX
    obtain ⟨b, inB, indexB, tagB⟩ := owner inY
    obtain rfl := List.inj_on_of_nodup_map (Multiset.coe_nodup.mp apart) inA inB (tagA.trans (same.trans tagB.symm))
    exact Prod.ext same (indexA.symm.trans indexB)
  · obtain ⟨x, inside, rfl⟩ := List.mem_map.mp (Multiset.mem_coe.mp listed)
    obtain ⟨e, member, _, tag⟩ := owner inside
    exact Multiset.mem_coe.mpr (List.mem_map.mpr ⟨e, member, tag⟩)

/-- No two pending replies of a port carry one tag. -/
theorem Tagged.replies_apart {h : Hub} {p : Port} (entries : EntryLaw h) (law : Tagged h p) :
    ((h.layer p).replies.map PendingReply.tag).Nodup := by
  obtain ⟨apart, _, distinct, each⟩ := law
  have table : entryTags h.table p ≤ heldTags h p := by
    unfold heldTags
    simp only [add_assoc]
    exact Multiset.le_add_right _ _
  have within : heldTags h p ≤ owed h p := by
    rw [owed_eq, add_assoc]
    exact Multiset.le_add_right _ _
  have fences : (((h.layer p).replies.filterMap fenceTag : List Byte) : Multiset Byte) ≤ fenceTags (h.layer p) := by
    refine (Multiset.le_iff_subset (Multiset.coe_nodup.mpr distinct)).mpr fun t listed => ?_
    obtain ⟨f, member, tag, _⟩ := each t (Multiset.mem_coe.mp listed)
    exact Multiset.mem_coe.mpr (List.mem_map.mpr ⟨f, member, tag⟩)
  have own := (entry_reply_tags entries (Multiset.nodup_of_le (table.trans within) apart)).trans table
  refine Multiset.coe_nodup.mp (Multiset.nodup_of_le ?_ apart)
  rw [reply_tags, owed_eq]
  exact add_le_add (add_le_add own fences) le_rfl

theorem tag_law_iff {h : Hub} (entries : EntryLaw h) : TagLaw h ↔ ∀ p, Tagged h p := by
  refine forall_congr' fun p => ?_
  rw [Tagged, owed_outstanding, Multiset.coe_nodup]
  constructor
  · rintro ⟨apart, same, replies, fences⟩
    refine ⟨apart, same, replies.sublist (sublist_of_tags (fun r t own => by cases r <;> cases own; rfl) _), fun t listed => ?_⟩
    exact fences t (fence_tag_mem.mp listed)
  · intro law
    have tagged : Tagged h p := by
      rw [Tagged, owed_outstanding, Multiset.coe_nodup]
      exact law
    exact ⟨law.1, law.2.1, tagged.replies_apart entries, fun t pending => law.2.2.2 t (fence_tag_mem.mpr pending)⟩

end Sys2Proof.Safety
end

section
/-! SUPPORT. The aborts of a commit and the discarding of a HUB_RESET keep the law of tags (R23, R24, R96, R97, R158). -/

namespace Sys2Proof.Safety

open Sys2Proof.Machine

theorem WorkOnly.rest {h g : Hub} (work : WorkOnly h g) : g.rest = h.rest := by
  obtain ⟨t, f, u, ms, ls, rfl⟩ := work
  rfl

/-- Leases and waiting requests hand tags to replies, and nothing else of the work changes that the law looks at. -/
theorem Tagged.leases {h g : Hub} {p : Port} (law : Tagged h p) (slots : SlotsLaw h) (flow : LeaseFlow h g p)
    (entries : entryTags g.table p = entryTags h.table p) (rest : g.rest.wakes = h.rest.wakes)
    (config : g.config = h.config) : Tagged g p := by
  obtain ⟨paid, layer, moved⟩ := flow
  refine law.flow layer ?_
  have leases := moved slots
  unfold heldTags
  rw [entries, rest, config, add_assoc (entryTags h.table p), leases]
  ac_rfl

theorem Tagged.work {h g : Hub} {p : Port} (law : Tagged h p) (slots : SlotsLaw h) (flow : LeaseFlow h g p)
    (entries : entryTags g.table p = entryTags h.table p) (work : WorkOnly h g) : Tagged g p :=
  law.leases slots flow entries (by rw [work.rest]) work.config

/-! ### ABORTED replies -/

theorem answered_cases {rs : List PendingReply} {x : Byte × Nat} {r : PendingReply} (inside : r ∈ answered rs x) :
    r = .aborted x.1 x.2 ∨ (r ∈ rs ∧ r.tag ≠ x.1) := by
  unfold answered at inside
  split at inside
  · obtain ⟨y, member, rfl⟩ := List.mem_map.mp inside
    split
    · exact .inl rfl
    · next other => exact .inr ⟨member, other⟩
  · next absent =>
    rcases List.mem_append.mp inside with member | last
    · exact .inr ⟨member, fun same => absent (List.any_eq_true.mpr ⟨r, member, beq_iff_eq.mpr same⟩)⟩
    · exact .inl (List.mem_singleton.mp last)

theorem answered_tags (rs : List PendingReply) (x : Byte × Nat) : (answered rs x).map PendingReply.tag =
    if x.1 ∈ rs.map PendingReply.tag then rs.map PendingReply.tag else rs.map PendingReply.tag ++ [x.1] := by
  have listed : rs.any (fun r => r.tag == x.1) = true ↔ x.1 ∈ rs.map PendingReply.tag := by
    simp [List.any_eq_true, List.mem_map]
  unfold answered
  by_cases present : x.1 ∈ rs.map PendingReply.tag
  · rw [if_pos present, if_pos (listed.mpr present), List.map_map]
    refine List.map_congr_left fun r _ => ?_
    simp only [Function.comp]
    split
    · next same => exact same.symm
    · rfl
  · rw [if_neg present, if_neg (mt listed.mp present), List.map_append]
    rfl

theorem answered_apart {rs : List PendingReply} (apart : (rs.map PendingReply.tag).Nodup) (x : Byte × Nat) :
    ((answered rs x).map PendingReply.tag).Nodup := by
  rw [answered_tags]
  split
  · exact apart
  · next absent => exact List.concat_eq_append ▸ apart.concat absent

/-- An ABORTED reply takes the place of at most one reply, which is not one that alone holds its tag. -/
theorem answered_own {rs : List PendingReply} {x : Byte × Nat} (apart : (rs.map PendingReply.tag).Nodup)
    (free : ∀ r ∈ rs, r.tag = x.1 → ownTag r = none) : ownTags (answered rs x) = ownTags rs + {x.1} := by
  have aborted : ownTags [PendingReply.aborted x.1 x.2] = {x.1} := rfl
  unfold answered
  split
  · next listed =>
    obtain ⟨r, member, tag⟩ := List.any_eq_true.mp listed
    obtain ⟨older, newer, rfl⟩ := List.append_of_mem member
    have same : r.tag = x.1 := beq_iff_eq.mp tag
    have others {ss : List PendingReply} (other : x.1 ∉ ss.map PendingReply.tag) :
        ss.map (fun r => if r.tag = x.1 then PendingReply.aborted x.1 x.2 else r) = ss := by
      refine (List.map_congr_left fun z inside => ?_).trans (List.map_id ss)
      exact if_neg fun own : z.tag = x.1 => other (List.mem_map.mpr ⟨z, inside, own⟩)
    rw [List.map_append, List.map_cons, List.nodup_append, List.nodup_cons] at apart
    obtain ⟨_, ⟨later, _⟩, before⟩ := apart
    rw [List.map_append, List.map_cons, others fun inside => before _ inside _ List.mem_cons_self same.symm,
      others (same ▸ later), if_pos same, show PendingReply.aborted x.1 x.2 :: newer = [PendingReply.aborted x.1 x.2] ++ newer from rfl,
      show r :: newer = [r] ++ newer from rfl, own_tags_append, own_tags_append, own_tags_append, own_tags_append, aborted,
      show ownTags [r] = 0 by simp [ownTags, free r member same]]
    ac_rfl
  · rw [own_tags_append, aborted]

theorem all_answered_own {rs : List PendingReply} {xs : List (Byte × Nat)} (apart : (rs.map PendingReply.tag).Nodup)
    (distinct : (xs.map Prod.fst).Nodup) (free : ∀ r ∈ rs, r.tag ∈ xs.map Prod.fst → ownTag r = none) :
    ownTags (xs.foldl answered rs) = ownTags rs + (xs.map Prod.fst : List Byte) := by
  induction xs generalizing rs with
  | nil => exact (add_zero _).symm
  | cons x xs ih =>
    obtain ⟨first, rest⟩ := List.nodup_cons.mp distinct
    rw [List.foldl_cons, ih (answered_apart apart x) rest fun r inside listed => ?_,
      answered_own apart fun r inside same => free r inside (same ▸ List.mem_cons_self), add_assoc]
    · rfl
    · rcases answered_cases inside with rfl | ⟨member, _⟩
      · exact absurd listed first
      · exact free r member (List.mem_cons_of_mem _ listed)

/-- A fence's reply that is left is not answered. -/
theorem all_answered_fence {rs : List PendingReply} {xs : List (Byte × Nat)} {t : Byte}
    (left : PendingReply.fence t ∈ xs.foldl answered rs) : PendingReply.fence t ∈ rs ∧ t ∉ xs.map Prod.fst := by
  induction xs generalizing rs with
  | nil => exact ⟨left, List.not_mem_nil⟩
  | cons x xs ih =>
    obtain ⟨inside, later⟩ := ih left
    rcases answered_cases inside with no | ⟨member, other⟩
    · cases no
    · exact ⟨member, List.not_mem_cons_of_ne_of_not_mem other later⟩

/-! ### Entries that an abort frees -/

/-- An abort that is no teardown leaves the tags of the entries that it marks. -/
theorem marked_tag {h : Hub} {kind : AbortKind} (kept : kind ≠ .torn) (p : Port) (e : Entry) :
    entryTag p (markedOf h kind e) = entryTag p e := by
  unfold markedOf
  split
  · next flies =>
    unfold entryTag
    by_cases torn : e.aborting = some .torn
    · simp only [torn, if_true]
    · simp [torn, kept]
  · rfl

/-- What is left of the tags of entries when all work is aborted. -/
theorem aborted_tags {h g : Hub} (law : IndexLaw h) {kind : AbortKind} (kept : kind ≠ .torn)
    (table : g.table = h.table.map (markedOf h kind)) (p : Port) :
    entryTags (g.removeEntries ((freedOf h).map Entry.index)).table p = entryTags (h.table.filter (flying h)) p := by
  have stays : h.table.filter ((fun e => decide (e.index ∉ (freedOf h).map Entry.index)) ∘ markedOf h kind) =
      h.table.filter (flying h) := by
    refine List.filter_congr fun e member => ?_
    simp only [Function.comp, marked_index]
    cases flies : flying h e
    · simp only [decide_eq_false_iff_not, not_not]
      exact List.mem_map_of_mem (List.mem_filter.mpr ⟨member, by simp [flies]⟩)
    · exact decide_eq_true (flying_not_freed law (freed_rests h) member flies)
  rw [entry_tags_core (removed_core g _), table, List.filter_map, stays]
  refine entry_tags_congr ?_
  rw [List.map_map]
  exact List.map_congr_left fun e _ => marked_tag kept p e

/-- The tags of the entries, of those that an abort leaves and of those that it frees. -/
theorem flying_tags (h : Hub) (p : Port) :
    entryTags h.table p = entryTags (h.table.filter (flying h)) p + entryTags (freedOf h) p :=
  entry_tags_split h.table (flying h) p

/-- The tags that a forced commit answers. -/
theorem owed_of_tags (h : Hub) (p : Port) : (((owedOf h p).map Prod.fst : List Byte) : Multiset Byte) =
    entryTags (freedOf h) p + fenceTags (h.layer p) := by
  rw [owedOf, List.map_append, ← Multiset.coe_add, owedEntries, List.map_map, List.map_map]
  rfl

/-! ### A commit's aborts -/

/-- The same requests are outstanding, and the tag set is the same. -/
theorem Tagged.moved {h g : Hub} {p : Port} (law : Tagged h p) (tags : (g.layer p).tags = (h.layer p).tags)
    (same : owed g p = owed h p) (agree : FencesOk (g.layer p)) : Tagged g p := by
  rw [Tagged, tags, same]
  exact ⟨law.1, law.2.1, agree⟩

theorem abort_answered_table (h : Hub) : ∃ g : Hub, h.abortAnswered = g.removeEntries ((freedOf h).map Entry.index) ∧
    g.table = h.table.map (markedOf h .answered) ∧ g.leases = h.leases :=
  ⟨_, abort_answered_eq (m := quadOf (abortedLayer h)) (quad_of_get _), rfl, rfl⟩

theorem removed_slots_tags (h : Hub) (gone : List Index) (p : Port) :
    grantTags (h.removeEntries gone).leases.slots p = grantTags h.leases.slots p ∧
      (h.removeEntries gone).leases.waits = h.leases.waits := by
  rw [remove_entries_eq, Hub.release_leases]
  refine ⟨?_, rfl⟩
  rw [grantTags, grantTags, List.filterMap_map]
  exact congrArg _ (List.filterMap_congr fun x _ => without_granting_tag gone p x)

theorem tagged_abort_answered {h : Hub} {p : Port} (entries : EntryLaw h) (law : Tagged h p) : Tagged h.abortAnswered p := by
  obtain ⟨g, same, table, leases⟩ := abort_answered_table h
  obtain ⟨grants, waits⟩ := removed_slots_tags g ((freedOf h).map Entry.index) p
  have work := work_abort_answered h
  have held : heldTags h p = heldTags h.abortAnswered p + entryTags (freedOf h) p := by
    unfold heldTags
    rw [work.rest, work.config, same, aborted_tags entries.indices (by simp) table, grants, waits, leases, flying_tags]
    ac_rfl
  have owes : owed h p = heldTags h.abortAnswered p + ((owedOf h p).map Prod.fst : List Byte) + ownTags (h.layer p).replies := by
    rw [owed_eq, held, owed_of_tags]
    ac_rfl
  obtain ⟨within, _, disjoint⟩ := Multiset.nodup_add.mp (owes ▸ law.1)
  obtain ⟨_, distinct, _⟩ := Multiset.nodup_add.mp within
  have own := all_answered_own (law.replies_apart entries) (Multiset.coe_nodup.mp distinct) fun r inside listed => by
    by_contra held
    obtain ⟨t, own⟩ := Option.ne_none_iff_exists'.mp held
    have tag : r.tag = t := by cases r <;> cases own <;> rfl
    exact Multiset.disjoint_left.mp disjoint (Multiset.mem_add.mpr (.inr (Multiset.mem_coe.mpr (tag ▸ listed))))
      (Multiset.mem_coe.mpr (List.mem_filterMap.mpr ⟨r, inside, own⟩))
  have layer := abort_answered_layer h p
  refine law.moved (by rw [layer]; rfl) ?_ ?_
  · rw [owed_eq, layer, owes]
    show heldTags h.abortAnswered p + 0 + ownTags ((owedOf h p).foldl answered (h.layer p).replies) = _
    rw [own]
    ac_rfl
  · have none_left : (h.abortAnswered.layer p).replies.filterMap fenceTag = [] := by
      refine List.eq_nil_iff_forall_not_mem.mpr fun t left => ?_
      rw [layer, fence_tag_mem] at left
      obtain ⟨before, unanswered⟩ := all_answered_fence left
      obtain ⟨f, member, tag, _⟩ := law.2.2.2 t (fence_tag_mem.mpr before)
      refine unanswered (Multiset.mem_coe.mp ?_)
      rw [owed_of_tags, Multiset.mem_add]
      exact .inr (Multiset.mem_coe.mpr (List.mem_map.mpr ⟨f, member, tag⟩))
    rw [FencesOk, none_left]
    exact ⟨List.nodup_nil, fun t listed => by cases listed⟩

theorem emptied_layer (h : Hub) (p : Port) : h.emptyLeases.layer p = emptiedLayer h p := by
  obtain ⟨ms, same, layers⟩ := emptied h
  rw [same]
  exact layers p

/-- The lease table and the wait list are emptied, and what they held is answered (R96). -/
theorem tagged_emptied {h : Hub} {p : Port} (law : Tagged h p) : Tagged h.emptyLeases p := by
  obtain ⟨ms, same, _⟩ := emptied h
  have flow := Flow.more (m := h.layer p) (m' := emptiedLayer h p) rfl rfl (List.append_assoc ..) (by
      refine List.filterMap_eq_nil_iff.mpr fun r inside => ?_
      rcases List.mem_append.mp inside with waits | grants
      · obtain ⟨w, _, rfl⟩ := List.mem_map.mp waits
        rfl
      · obtain ⟨t, _, rfl⟩ := List.mem_map.mp grants
        rfl)
  refine law.flow (emptied_layer h p ▸ flow) ?_
  have own : ownTags ((h.leases.waits.filter (fun w => w.port == p)).map (fun w => PendingReply.leaseEnd w.tag .aborted 0) ++
      (h.leases.slots.filterMap (grantingTag p)).map (fun t => PendingReply.leaseEnd t .aborted 0)) =
        waitTags h.leases.waits p + grantTags h.leases.slots p := by
    rw [own_tags_append, ownTags, ownTags, List.filterMap_map, List.filterMap_map]
    refine congrArg₂ (· + ·) (congrArg _ ?_) (congrArg _ ?_)
    · exact congrFun (List.filterMap_eq_map (f := Waiting.tag)) _
    · exact List.filterMap_some
  have freed : grantTags h.emptyLeases.leases.slots p = 0 := by
    rw [same, grantTags, List.filterMap_eq_nil_iff.mpr fun x inside => ?_]
    · rfl
    · obtain ⟨y, _, rfl⟩ := List.mem_map.mp inside
      exact granting_tag_free rfl p
  have waits : waitTags h.emptyLeases.leases.waits p = 0 := by
    rw [same]
    rfl
  unfold heldTags
  rw [own, freed, waits, same]
  show _ + _ + _ + wakeTags h.rest.wakes p + changeTags h.config.change p + bringupTags h.config.bringup p =
    entryTags h.table p + 0 + 0 + wakeTags h.rest.wakes p + changeTags h.config.change p + bringupTags h.config.bringup p + _
  rw [add_zero, add_zero]
  ac_rfl

theorem tagged_commit_aborts {h : Hub} {p : Port} (entries : EntryLaw h) (slots : SlotsLaw h) (law : Tagged h p)
    (abort geometry : Bool) : Tagged (h.commitAborts abort geometry) p := by
  obtain ⟨both, empties, nothing, aborts⟩ := commit_aborts_eq h
  cases abort <;> cases geometry
  · rw [nothing]
    exact law
  · rw [empties]
    exact tagged_emptied law
  · rw [aborts]
    refine (tagged_abort_answered entries law).work (abort_answered_ids slots) (flow_grants _ _ p) ?_ (work_grants _ _)
    rw [Hub.grantDrained, grants_table]
  · rw [both]
    exact tagged_emptied (tagged_abort_answered entries law)

/-- A commit's aborts take no tag out of a tag set. -/
theorem commit_aborts_tags (h : Hub) (abort geometry : Bool) (p : Port) :
    ((h.commitAborts abort geometry).layer p).tags = (h.layer p).tags := by
  have emptied_tags (k : Hub) : (k.emptyLeases.layer p).tags = (k.layer p).tags := by
    rw [emptied_layer]
    rfl
  have answered_tags : (h.abortAnswered.layer p).tags = (h.layer p).tags := by
    rw [abort_answered_layer]
    rfl
  obtain ⟨both, empties, nothing, aborts⟩ := commit_aborts_eq h
  cases abort <;> cases geometry
  · rw [nothing]
  · rw [empties, emptied_tags]
  · obtain ⟨paid, flow, _⟩ := flow_grants h.abortAnswered (h.abortAnswered.leases.slots.map LeaseSlot.id) p
    rw [aborts]
    exact flow.tags.trans answered_tags
  · rw [both, emptied_tags, answered_tags]

end Sys2Proof.Safety
end

section
/-! SUPPORT. The taking of a HUB_RESET, the reset event, the deferred WAKEs and the copy of a commit keep the law of tags
(R24, R104, R125, R129, R132, R158). -/

namespace Sys2Proof.Safety

open Sys2Proof.Machine

/-! ### The work that a HUB_RESET discards -/

theorem own_tags_split (rs : List PendingReply) (c : PendingReply → Bool) :
    ownTags rs = ownTags (rs.filter c) + ownTags (rs.filter (fun r => !c r)) := by
  induction rs with
  | nil => rfl
  | cons r rs ih =>
    rw [show r :: rs = [r] ++ rs from rfl, own_tags_append, ih, List.filter_append, List.filter_append, own_tags_append,
      own_tags_append]
    cases kept : c r
    · rw [List.filter_cons_of_neg (by simp [kept]), List.filter_cons_of_pos (by simp [kept])]
      simp only [List.filter_nil, show ownTags [] = 0 from rfl]
      ac_rfl
    · rw [List.filter_cons_of_pos kept, List.filter_cons_of_neg (by simp [kept])]
      simp only [List.filter_nil, show ownTags [] = 0 from rfl]
      ac_rfl

/-- The tags of the requests that a HUB_RESET ends. -/
def endedTags (h : Hub) (p : Port) : Multiset Byte :=
  entryTags (freedOf h) p + fenceTags (h.layer p) + ownTags ((h.layer p).replies.filter PendingReply.discardedByReset) +
    waitTags h.leases.waits p + grantTags h.leases.slots p

/-- The replies of entries and fences that are discarded have the tags of entries and fences that go. -/
theorem gone_tags_mem {h : Hub} {p : Port} (entries : EntryLaw h) (law : Tagged h p) (t : Byte) :
    t ∈ goneTags h p ↔ t ∈ endedTags h p := by
  have freed : t ∈ entryTags (freedOf h) p ↔
      t ∈ ((freedOf h).filter (fun e => e.port == p && e.aborting != some .torn)).map Entry.tag := Multiset.mem_coe
  have fences : t ∈ fenceTags (h.layer p) ↔ t ∈ (h.layer p).fences.map Fence.tag := Multiset.mem_coe
  have waits : t ∈ waitTags h.leases.waits p ↔ t ∈ (h.leases.waits.filter (fun w => w.port == p)).map Waiting.tag :=
    Multiset.mem_coe
  have grants : t ∈ grantTags h.leases.slots p ↔ t ∈ h.leases.slots.filterMap (grantingTag p) := Multiset.mem_coe
  have own : t ∈ ownTags ((h.layer p).replies.filter PendingReply.discardedByReset) →
      t ∈ ((h.layer p).replies.filter PendingReply.discardedByReset).map PendingReply.tag := fun inside =>
    (sublist_of_tags (fun r t own => by cases r <;> cases own <;> rfl) _).subset (Multiset.mem_coe.mp inside)
  have replies : t ∈ ((h.layer p).replies.filter PendingReply.discardedByReset).map PendingReply.tag →
      t ∈ entryTags (freedOf h) p ∨ t ∈ fenceTags (h.layer p) ∨
        t ∈ ownTags ((h.layer p).replies.filter PendingReply.discardedByReset) := by
    intro listed
    obtain ⟨r, inside, rfl⟩ := List.mem_map.mp listed
    have pending := (List.mem_filter.mp inside).1
    have alone (same : ownTag r = some r.tag) := Multiset.mem_coe.mpr (List.mem_filterMap.mpr ⟨r, inside, same⟩)
    cases r with
    | entry t i =>
      obtain ⟨e, member, _, port, tag, done⟩ := entries.replies p t i pending
      refine .inl (freed.mpr (List.mem_map.mpr ⟨e, List.mem_filter.mpr ⟨List.mem_filter.mpr ⟨member, ?_⟩, ?_⟩, tag⟩))
      · rw [done_not_flying done]
        rfl
      · simp [port, done_unmarked entries member done]
    | fence t =>
      obtain ⟨f, member, tag, _⟩ := law.2.2.2 t (fence_tag_mem.mpr pending)
      exact .inr (.inl (fences.mpr (List.mem_map.mpr ⟨f, member, tag⟩)))
    | _ => exact .inr (.inr (alone rfl))
  rw [goneTags, endedTags, Multiset.mem_add, Multiset.mem_add, Multiset.mem_add, Multiset.mem_add, List.mem_append,
    List.mem_append, List.mem_append, List.mem_append, waits, grants, ← freed, ← fences]
  refine or_congr_left (or_congr_left ⟨?_, Or.imp_right own⟩)
  rintro (held | listed)
  · exact .inl held
  · exact or_assoc.mpr (replies listed)

theorem discard_table (h : Hub) : ∃ g : Hub, h.discardWork = g.removeEntries ((freedOf h).map Entry.index) ∧
    g.table = h.table.map (markedOf h .silent) :=
  ⟨_, discard_work_eq (m := quadOf (discardedLayer h)) (quad_of_get _), rfl⟩

/-- Freed slots hold no tag. -/
theorem freed_slots_tags (xs : List LeaseSlot) (p : Port) :
    grantTags (xs.map (fun (x : LeaseSlot) => { x with lease := none })) p = 0 := by
  have none_left : (xs.map (fun (x : LeaseSlot) => { x with lease := none })).filterMap (grantingTag p) = [] := by
    rw [List.filterMap_map]
    exact List.filterMap_eq_nil_iff.mpr fun x _ => granting_tag_free rfl p
  rw [grantTags, none_left]
  rfl

theorem discard_held {h : Hub} (law : IndexLaw h) (p : Port) : heldTags h.discardWork p =
    entryTags (h.table.filter (flying h)) p + wakeTags h.rest.wakes p + changeTags h.config.change p +
      bringupTags h.config.bringup p := by
  obtain ⟨g, same, table⟩ := discard_table h
  have left : entryTags h.discardWork.table p = entryTags (h.table.filter (flying h)) p := by
    rw [same, aborted_tags law (by simp) table]
  unfold heldTags
  rw [left, discard_work_waits, discard_work_slots, freed_slots_tags, (work_discard h).rest, (work_discard h).config,
    show waitTags [] p = 0 from rfl, add_zero, add_zero]

theorem tagged_discard {h : Hub} {p : Port} (entries : EntryLaw h) (law : Tagged h p) : Tagged h.discardWork p := by
  have layer := discard_work_layer h p
  refine law.lose (lost := endedTags h p) (fun t => ?_) ?_ ?_
  · rw [layer, discardedLayer, List.mem_filter, ← gone_tags_mem entries law]
    simp
  · rw [owed_eq, owed_eq, discard_held entries.indices, layer, endedTags,
      own_tags_split (h.layer p).replies PendingReply.discardedByReset]
    unfold heldTags
    rw [flying_tags]
    show _ = _ + _ + _ + _ + 0 + ownTags ((h.layer p).replies.filter (fun r => !r.discardedByReset)) + _
    rw [add_zero]
    ac_rfl
  · have none_left : (h.discardWork.layer p).replies.filterMap fenceTag = [] := by
      rw [layer]
      refine List.filterMap_eq_nil_iff.mpr fun r inside => ?_
      have kept := (List.mem_filter.mp inside).2
      cases r <;> simp_all [PendingReply.discardedByReset, fenceTag]
    rw [FencesOk, none_left]
    exact ⟨List.nodup_nil, fun t listed => by cases listed⟩

/-! ### Deferred WAKEs -/

/-- The tags of deferred WAKEs are those of their replies. -/
theorem wake_replies (ws : List (Port × Byte)) (p : Port) :
    ownTags ((ws.filter (fun w => w.1 == p)).map (fun w => PendingReply.wake w.2)) = wakeTags ws p := by
  rw [ownTags, List.filterMap_map]
  exact congrArg (fun ts : List Byte => (ts : Multiset Byte)) (congrFun (List.filterMap_eq_map (f := Prod.snd)) _)

theorem wake_replies_fences (ws : List (Port × Byte)) :
    (ws.map (fun w => PendingReply.wake w.2)).filterMap fenceTag = [] := by
  rw [List.filterMap_map]
  exact List.filterMap_eq_nil_iff.mpr fun w _ => rfl

theorem flow_woken (h : Hub) (p : Port) : Flow (h.layer p) (wokenLayer h p) (wakeTags h.rest.wakes p) := by
  rw [← wake_replies]
  exact .more rfl rfl rfl (wake_replies_fences _)

theorem served_held (h : Hub) (p : Port) : heldTags h p = heldTags (served h) p + wakeTags h.rest.wakes p := by
  have entries : entryTags (served h).table p = entryTags h.table p := entry_tags_core (cleared_core h.table) p
  unfold heldTags
  rw [entries]
  show _ = entryTags h.table p + waitTags h.leases.waits p + grantTags h.leases.slots p + 0 +
    changeTags h.config.change p + bringupTags h.config.bringup p + wakeTags h.rest.wakes p
  rw [add_zero]
  ac_rfl

theorem flow_served (h : Hub) (p : Port) : Flow (h.layer p) ((served h).layer p) (wakeTags h.rest.wakes p) := by
  rw [served_layer]
  exact flow_woken h p

theorem tagged_served {h : Hub} {p : Port} (law : Tagged h p) : Tagged (served h) p :=
  law.flow (flow_served h p) (served_held h p)

/-! ### The reset event -/

theorem tagged_reset {h : Hub} {p q : Port} {tag : Byte} {torn : Bool} {ms : Quad MessageLayer} (entries : EntryLaw h)
    (pending : h.config.change = some ⟨.hubReset, p, tag, torn⟩) (idle : h.scheduler.idle = true)
    (layers : ∀ q, ms.get q = resetLayer h p tag torn q) (law : Tagged h q) : Tagged (resetHub h ms) q := by
  have free := ((idle_iff _).mp idle).1
  have layer : (resetHub h ms).layer q = resetLayer h p tag torn q := layers q
  have change : ownTags (if torn = false ∧ q = p then [PendingReply.hubReset tag] else []) = changeTags h.config.change q := by
    rw [pending]
    unfold changeTags
    by_cases own : torn = false ∧ q = p
    · rw [if_pos own]
      simp only [own.1, own.2, and_self, if_true]
      rfl
    · rw [if_neg own]
      simp only [show ¬ (p = q ∧ torn = false) from fun both => own ⟨both.2, both.1.symm⟩, if_false]
      rfl
  have flow : Flow (h.discardWork.layer q) ((resetHub h ms).layer q)
      (ownTags ((h.rest.wakes.filter (fun w => w.1 == q)).map (fun w => PendingReply.wake w.2) ++
        if torn = false ∧ q = p then [PendingReply.hubReset tag] else [])) := by
    rw [layer, discard_work_layer]
    refine .more rfl rfl (List.append_assoc ..) ?_
    rw [List.filterMap_append, wake_replies_fences]
    split <;> rfl
  refine (tagged_discard entries law).flow flow ?_
  have none_flies : h.table.filter (flying h) = [] :=
    List.filter_eq_nil_iff.mpr fun e _ => by simp [flying, free]
  rw [discard_held entries.indices, own_tags_append, wake_replies, change, none_flies]
  have held : heldTags (resetHub h ms) q = bringupTags h.config.bringup q := by
    unfold heldTags
    rw [show (resetHub h ms).leases.slots = h.leases.slots.map (fun (x : LeaseSlot) => { x with lease := none }) from rfl,
      freed_slots_tags]
    show (0 : Multiset Byte) + 0 + 0 + 0 + 0 + bringupTags h.config.bringup q = _
    simp only [zero_add]
  rw [held, show entryTags [] q = 0 from rfl, zero_add]
  ac_rfl

/-! ### The copy of a commit, and the end of bring-up -/

theorem tagged_copied {h : Hub} {p q : Port} {kind : ChangeKind} {geometry torn : Bool} {tag : Byte}
    (pending : h.config.change = some ⟨kind, p, tag, torn⟩) (absent : h.config.bringup = none) (law : Tagged h q) :
    Tagged (copied h geometry p tag torn) q := by
  refine law.same (.refl _) ?_
  unfold heldTags
  rw [pending, absent]
  show entryTags h.table q + waitTags h.leases.waits q + grantTags h.leases.slots q + wakeTags h.rest.wakes q + 0 +
    changeTags (some ⟨kind, p, tag, torn⟩) q = _ + _ + 0
  rw [add_zero, add_zero]

theorem tagged_end_bringup {h : Hub} {q : Port} {r : Bringup} (inside : h.config.bringup = some r) (law : Tagged h q) :
    Tagged (h.endBringup r) q := by
  have told := Flow.same ((quiet_notify_up (served (bringupOver h)) .channelState Channel.serving.code).layers q)
  have woken : Flow (h.layer q) _ _ := (flow_served (bringupOver h) q).trans told
  have held : heldTags h q = heldTags (served (bringupOver h)) q + wakeTags h.rest.wakes q + bringupTags (some r) q := by
    rw [← inside]
    have moved := served_held (bringupOver h) q
    have before : heldTags h q = heldTags (bringupOver h) q + bringupTags h.config.bringup q := by
      unfold heldTags
      show _ = _ + _ + _ + _ + _ + 0 + _
      rw [add_zero]
      rfl
    rw [before, moved]
    rfl
  rw [end_bringup_eq]
  split
  · next torn =>
    refine law.flow woken ?_
    rw [held, show bringupTags (some r) q = 0 by simp [bringupTags, torn], add_zero, add_zero]
    rfl
  · next kept =>
    refine law.flow (woken.trans (flow_defer _ r.port (tag := r.tag) rfl q)) ?_
    have paid : bringupTags (some r) q = tagOf r.port q r.tag := by
      unfold bringupTags tagOf
      by_cases own : r.port = q <;> simp [own, kept]
    rw [held, paid]
    show _ = heldTags (served (bringupOver h)) q + (wakeTags h.rest.wakes q + 0 + tagOf r.port q r.tag)
    rw [add_zero]
    ac_rfl

end Sys2Proof.Safety
end

section
/-! SUPPORT. Lease requests and the teardown of a port keep the law of tags (R75, R83, R86, R90, R177). -/

namespace Sys2Proof.Safety

open Sys2Proof.Machine

/-! ### Slots that are freed or occupied -/

/-- One slot is freed. -/
theorem freed_slot_tags {h : Hub} (law : SlotsLaw h) {x : LeaseSlot} (member : x ∈ h.leases.slots) (p : Port) :
    grantTags h.leases.slots p =
      grantTags (h.freeSlots (fun s => s.id == x.id)).leases.slots p + ((grantingTag p x).toList : List Byte) := by
  have replaced := replace_slot (grantingTag p) (slots_apart law) member (fun s => { s with lease := none })
  rw [granting_tag_free rfl] at replaced
  have same : (h.freeSlots (fun s => s.id == x.id)).leases.slots =
      h.leases.slots.map (fun y => if y.id = x.id then { y with lease := none } else y) := by
    refine List.map_congr_left fun y _ => ?_
    simp only [beq_iff_eq]
  rw [same]
  exact (add_zero _).symm.trans replaced

/-- A lease that leaves, but for the tag of the lease itself: the wait list is scanned. -/
theorem flow_freed_slot {h : Hub} (law : SlotsLaw h) (id : LeaseId) (p : Port) : ∃ paid,
    Flow (h.layer p) ((h.leaseLeaves id).layer p) paid ∧
      waitTags h.leases.waits p + grantTags (h.freeSlots (fun s => s.id == id)).leases.slots p =
        waitTags (h.leaseLeaves id).leases.waits p + grantTags (h.leaseLeaves id).leases.slots p + paid := by
  obtain ⟨paid, flow, tags⟩ := flow_scan ((h.freeSlots (fun s => s.id == id)).recheck) p
  exact ⟨paid, flow, tags (freed_slots_law _ law)⟩

theorem leave_entry_tags (h : Hub) (id : LeaseId) (p : Port) : entryTags (h.leaseLeaves id).table p = entryTags h.table p := by
  rw [Hub.leaseLeaves, scan_table]
  exact entry_tags_core (recheck_core _) p

/-- A GRANTED lease leaves. -/
theorem tagged_leave {h : Hub} {p : Port} {x : LeaseSlot} {l : Lease} {expiry : Nat} (slots : SlotsLaw h)
    (member : x ∈ h.leases.slots) (held : x.lease = some l) (granted : l.phase = .granted expiry) (law : Tagged h p) :
    Tagged (h.leaseLeaves x.id) p := by
  obtain ⟨paid, flow, tags⟩ := flow_freed_slot slots x.id p
  refine law.work slots ⟨paid, flow, fun _ => ?_⟩ (leave_entry_tags h x.id p) (work_leave h x.id)
  rw [← tags, freed_slot_tags slots member, granting_tag_granted held granted]
  exact congrArg (_ + ·) (add_zero _)

/-- The slot of a GRANTING lease, by its owner and its tag. -/
theorem granting_slot_some {h : Hub} {p : Port} {tag : Byte} {id : LeaseId} {deadline left : Nat}
    (found : h.grantingSlot p tag = some (id, deadline, left)) :
    ∃ x ∈ h.leases.slots, x.id = id ∧ ∃ l duration drain, x.lease = some l ∧ l.owner = p ∧
      l.phase = .granting duration deadline drain tag := by
  obtain ⟨x, member, own⟩ := List.exists_of_findSome?_eq_some found
  split at own
  · next owner base length mode duration deadline' drain tag' held =>
    split at own
    · next mine =>
      cases own
      exact ⟨x, member, rfl, _, duration, drain, held, mine.1, mine.2 ▸ rfl⟩
    · cases own
  · cases own

/-- A GRANTING lease times out. -/
theorem tagged_granting_ends {h : Hub} {p q : Port} {tag : Byte} {id : LeaseId} {deadline left : Nat} (slots : SlotsLaw h)
    (found : h.grantingSlot p tag = some (id, deadline, left)) (law : Tagged h q) :
    Tagged ((h.leaseLeaves id).defer p (.leaseEnd tag .timeout left)) q := by
  obtain ⟨x, member, rfl, l, duration, drain, held, rfl, phase⟩ := granting_slot_some found
  obtain ⟨paid, flow, tags⟩ := flow_freed_slot slots x.id q
  refine law.work slots ⟨_, flow.trans (flow_defer _ l.owner rfl q), fun _ => ?_⟩ (leave_entry_tags h x.id q)
    ((work_leave h x.id).trans (work_on_messages _ _ _))
  rw [freed_slot_tags slots member, granting_tag_some held phase, ← add_assoc, tags, add_assoc]
  refine congrArg (fun paid' : Multiset Byte => waitTags (h.leaseLeaves x.id).leases.waits q +
    grantTags (h.leaseLeaves x.id).leases.slots q + (paid + paid')) ?_
  unfold tagOf
  split <;> rfl

/-- A waiting request leaves the list. -/
theorem wait_tags_without {ws : List Waiting} {p : Port} {tag : Byte} (apart : (waitTags ws p).Nodup)
    {w : Waiting} (member : w ∈ ws) (port : w.port = p) (own : w.tag = tag) (q : Port) :
    waitTags ws q = waitTags (ws.filter (fun x => !(x.port == p && x.tag == tag))) q + tagOf p q tag := by
  by_cases same : p = q
  · subst same
    have listed : tag ∈ (ws.filter (fun w => w.port == p)).map Waiting.tag :=
      List.mem_map.mpr ⟨w, List.mem_filter.mpr ⟨member, by simp [port]⟩, own⟩
    have left : (ws.filter (fun x => !(x.port == p && x.tag == tag))).filter (fun w => w.port == p) =
        (ws.filter (fun w => w.port == p)).filter (fun w => w.tag != tag) := by
      rw [List.filter_filter, List.filter_filter]
      refine List.filter_congr fun x _ => ?_
      simp only [bne, Bool.not_and]
      cases x.port == p <;> simp
    have erased : (((ws.filter (fun w => w.port == p)).map Waiting.tag).filter (fun t => t != tag)) =
        ((ws.filter (fun w => w.port == p)).map Waiting.tag).erase tag :=
      ((Multiset.coe_nodup.mp apart).erase_eq_filter tag).symm
    rw [List.filter_map] at erased
    unfold waitTags
    rw [left, tagOf, if_pos rfl]
    refine Eq.trans ?_ (congrArg (fun ts : List Byte => (ts : Multiset Byte) + {tag}) erased).symm
    rw [← Multiset.coe_erase, Multiset.add_comm, Multiset.singleton_add, Multiset.cons_erase (Multiset.mem_coe.mpr listed)]
  · have kept : (ws.filter (fun x => !(x.port == p && x.tag == tag))).filter (fun w => w.port == q) =
        ws.filter (fun w => w.port == q) := by
      rw [List.filter_filter]
      refine List.filter_congr fun x _ => ?_
      by_cases mine : x.port = q
      · simp [mine, Ne.symm same]
      · simp [mine]
    rw [waitTags, waitTags, kept, tagOf, if_neg same, add_zero]

/-- A part of the owed tags has no tag twice. -/
theorem Tagged.waits_apart {h : Hub} {p : Port} (law : Tagged h p) : (waitTags h.leases.waits p).Nodup := by
  refine Multiset.nodup_of_le ?_ law.1
  unfold owed
  simp only [add_assoc]
  exact (Multiset.le_add_right _ _).trans ((Multiset.le_add_left _ _).trans
    ((Multiset.le_add_left _ _).trans (Multiset.le_add_left _ _)))

/-- A waiting request times out. -/
theorem tagged_wait_ends {h : Hub} {p : Port} {tag : Byte} {w : Waiting} (slots : SlotsLaw h)
    (found : h.leases.waits.find? (fun w => w.port == p && w.tag == tag) = some w) (law : ∀ q, Tagged h q) (q : Port) :
    Tagged ({ h with leases := { h.leases with
      waits := h.leases.waits.filter (fun x => !(x.port == p && x.tag == tag)) } }.defer p
        (.leaseEnd tag .timeout 0)).scanWaits q := by
  have mine := List.find?_some found
  simp only [Bool.and_eq_true, beq_iff_eq] at mine
  have without := wait_tags_without (law p).waits_apart (List.mem_of_find?_eq_some found) mine.1 mine.2 q
  have left : LeaseFlow h ({ h with leases := { h.leases with
      waits := h.leases.waits.filter (fun x => !(x.port == p && x.tag == tag)) } }.defer p (.leaseEnd tag .timeout 0)) q := by
    refine ⟨_, flow_defer { h with leases := _ } p rfl q, fun _ => ?_⟩
    rw [without]
    exact add_right_comm _ _ _
  refine (law q).work slots (left.trans (flow_scan _ q) id) ?_ (.trans (.of_frame rfl) (work_scan _))
  rw [scan_table]
  rfl

/-- A request takes a free slot: it is granted at once, or its tag joins the tag set. -/
theorem tagged_take {h : Hub} {q : Port} {id : LeaseId} {w : Waiting} (slots : SlotsLaw h)
    (fresh : h.tagInUse w.port w.tag = false) (free : h.freeSlot = some id) (law : Tagged h q) :
    Tagged (h.placeTake id w) q := by
  have occupied := occupied_tags slots (w := w) free q
  have table : entryTags (h.placeTake id w).table q = entryTags h.table q := by rw [place_take_table]
  rcases place_take_cases h id w with ⟨_, quiet⟩ | ⟨_, same⟩
  · have started : grantTags ((h.occupySlot id w).startLease id w.duration).leases.slots q = grantTags h.leases.slots q := by
      obtain ⟨x, member, rfl, _⟩ := free_slot_some free
      have inside : ({ x with
          generation := x.generation + 1
          lease := some ⟨w.port, w.base, w.length, w.mode, .granting w.duration w.deadline (drainOf h w) w.tag⟩ } :
          LeaseSlot) ∈ (h.occupySlot x.id w).leases.slots := List.mem_map.mpr ⟨x, member, if_pos rfl⟩
      have starts := started_tags (occupied_law slots x.id w) inside rfl rfl w.duration q
      rw [occupied] at starts
      exact (add_right_cancel starts).symm
    refine (law.same (g := (h.occupySlot id w).startLease id w.duration) (.refl _) ?_).same (quiet.layers q) ?_
    · unfold heldTags
      rw [started]
      rfl
    · rw [quiet.frame]
      rfl
  · refine law.added fresh (by rw [same, add_tag_layer, add_tag_layer]; rfl) ?_
    rw [same] at table ⊢
    unfold heldTags
    rw [show ((h.occupySlot id w).addTag w.port w.tag).leases.slots = (h.occupySlot id w).leases.slots from rfl, occupied]
    show _ + _ + (grantTags h.leases.slots q + tagOf w.port q w.tag) + wakeTags h.rest.wakes q +
      changeTags h.config.change q + bringupTags h.config.bringup q = entryTags h.table q + waitTags h.leases.waits q + _ + _ + _ + _ + _
    rw [table]
    show entryTags h.table q + waitTags h.leases.waits q + _ + _ + _ + _ = _
    ac_rfl

/-! ### The teardown of a port (R177) -/

/-- Nothing of the port itself is outstanding. -/
theorem torn_port_owes_nothing (h : Hub) (p : Port) : owed (h.teardown p) p = 0 := by
  have layer := torn_layer_eq h p
  obtain ⟨u, ms, same, leases, _⟩ := teardown_units h p
  have entries : entryTags (h.teardown p).table p = 0 := by
    rw [teardown_table, entry_tags_eq, List.filterMap_eq_nil_iff.mpr fun e inside => ?_]
    · rfl
    · exact if_neg fun own => own.2 (rechecked_torn inside own.1).1
  have waits : waitTags u.waits p = 0 := by
    rw [waitTags, List.filter_eq_nil_iff.mpr fun w inside => ?_]
    · rfl
    · simpa using released_waits (h := h) (leases ▸ inside)
  have grants : grantTags u.slots p = 0 := by
    rw [grantTags, List.filterMap_eq_nil_iff.mpr fun x inside => ?_]
    · rfl
    · cases held : x.lease with
      | none => exact granting_tag_free held p
      | some l =>
        have other : l.owner ≠ p := released_standing (h := h) ⟨x, leases ▸ inside, held⟩
        cases phase : l.phase with
        | granted t => exact granting_tag_granted held phase p
        | granting duration deadline drain tag => rw [granting_tag_some held phase, if_neg other]
  have wakes : wakeTags (tornRest h p).wakes p = 0 := by
    rw [wakeTags, tornRest, List.filter_filter, List.filter_eq_nil_iff.mpr fun w _ => by simp]
    rfl
  have change : changeTags (tornConfig h p).change p = 0 := by
    unfold changeTags tornConfig
    cases h.config.change with
    | none => rfl
    | some c =>
      by_cases own : c.port = p <;> simp [own]
  have bringup : bringupTags (tornConfig h p).bringup p = 0 := by
    unfold bringupTags tornConfig
    cases h.config.bringup with
    | none => rfl
    | some r =>
      by_cases own : r.port = p <;> simp [own]
  rw [owed_eq, layer]
  unfold heldTags
  rw [entries, same]
  show 0 + waitTags u.waits p + grantTags u.slots p + wakeTags (tornRest h p).wakes p + changeTags (tornConfig h p).change p +
    bringupTags (tornConfig h p).bringup p + 0 + 0 = _
  rw [waits, grants, wakes, change, bringup]
  rfl

/-- The leases and requests of the other ports stand, or hand their tags to replies. -/
theorem torn_lease_flow {h : Hub} {p q : Port} (other : q ≠ p) : LeaseFlow h (portReleased h p) q := by
  have cleared : LeaseFlow h (portCleared h p) q := by
    refine .of_flow ?_ ?_
    · rw [show (portCleared h p).layer q = h.layer q from (quad_get_set _ _ _ _).trans (if_neg other)]
      exact .refl _
    · have waits : waitTags (h.leases.waits.filter (fun w => w.port != p)) q = waitTags h.leases.waits q := by
        rw [waitTags, List.filter_filter]
        refine congrArg (fun ws : List Waiting => (ws.map Waiting.tag : Multiset Byte)) (List.filter_congr fun w _ => ?_)
        by_cases own : w.port = q
        · simp [own, other]
        · simp [own]
      have grants : grantTags (portCleared h p).leases.slots q = grantTags h.leases.slots q := by
        refine congrArg (fun ts : List Byte => (ts : Multiset Byte)) ?_
        rw [show (portCleared h p).leases.slots = h.leases.slots.map _ from rfl, List.filterMap_map]
        refine List.filterMap_congr fun x _ => ?_
        simp only [Function.comp]
        split
        · next own =>
          rw [granting_tag_free rfl]
          cases held : x.lease with
          | none => exact (granting_tag_free held q).symm
          | some l =>
            have mine : l.owner = p := by simpa [slotOwned, held] using own
            cases phase : l.phase with
            | granted t => exact (granting_tag_granted held phase q).symm
            | granting duration deadline drain tag =>
              rw [granting_tag_some held phase, if_neg (by rw [mine]; exact Ne.symm other)]
        · rfl
      exact congrArg₂ (· + ·) waits grants
  have freed : LeaseFlow (portCleared h p) (portRechecked h p) q :=
    flow_removed (portCleared h p) ((freedAt h p).map Entry.index) q
  have cleared_law : SlotsLaw h → SlotsLaw (portCleared h p) := fun law => by
    rw [SlotsLaw, show (portCleared h p).leases.slots = h.leases.slots.map _ from rfl, List.map_map, ← law]
    refine List.map_congr_left fun x _ => ?_
    simp only [Function.comp]
    split <;> rfl
  have scanned : SlotsLaw (portRechecked h p) → SlotsLaw (portRechecked h p).scanWaits := fun law =>
    (scan_all_stay (kept := []) (portRechecked h p).leases.waits law fun e w l no => by simp at no).1
  exact ((cleared.trans freed cleared_law).trans (flow_scan _ q) (fun law => rechecked_law p law)).trans
    (flow_grants _ _ q) fun law => scanned (rechecked_law p law)

/-- The entries of the other ports keep their tags. -/
theorem torn_entry_tags {h : Hub} {p q : Port} (law : IndexLaw h) (other : q ≠ p) :
    entryTags (h.teardown p).table q = entryTags h.table q := by
  have apart (t : List Entry) : entryTags t q = entryTags (t.filter (fun e => e.port != p)) q := by
    rw [entry_tags_split t (fun e => e.port != p), entry_tags_eq (t.filter (fun e => !(e.port != p))),
      List.filterMap_eq_nil_iff.mpr fun e inside => ?_]
    · exact add_zero _
    · have own : e.port = p := by simpa using (List.mem_filter.mp inside).2
      exact if_neg fun mine => other (mine.1.symm.trans own)
  rw [teardown_table, apart, entry_tags_core (rechecked_others p law), ← apart]

theorem tagged_teardown {h : Hub} (entries : EntryLaw h) (slots : SlotsLaw h) (p q : Port) (law : Tagged h q) :
    Tagged (h.teardown p) q := by
  by_cases own : q = p
  · subst own
    have layer := torn_layer_eq h q
    rw [Tagged, torn_port_owes_nothing, layer]
    exact ⟨Multiset.nodup_zero, fun t => ⟨fun no => absurd no List.not_mem_nil, fun no => absurd no (Multiset.notMem_zero t)⟩,
      List.nodup_nil, fun t no => absurd no List.not_mem_nil⟩
  · obtain ⟨paid, flow, tags⟩ := torn_lease_flow (h := h) own
    obtain ⟨ms, frame, layers⟩ := teardown_frame h p
    have told : Flow ((portReleased h p).layer q) ((h.teardown p).layer q) 0 := by
      rw [frame, show Hub.layer { tornHub h p with messages := ms } q = _ from layers q]
      split
      · exact .same ⟨rfl, rfl, rfl⟩
      · exact .refl _
    obtain ⟨u, ns, same, leases, _⟩ := teardown_units h p
    have wakes : wakeTags (tornRest h p).wakes q = wakeTags h.rest.wakes q := by
      rw [wakeTags, tornRest, List.filter_filter]
      refine congrArg (fun ws : List (Port × Byte) => (ws.map Prod.snd : Multiset Byte)) (List.filter_congr fun w _ => ?_)
      by_cases mine : w.1 = q
      · simp [mine, own]
      · simp [mine]
    have change : changeTags (tornConfig h p).change q = changeTags h.config.change q := by
      unfold changeTags tornConfig
      cases h.config.change with
      | none => rfl
      | some c => by_cases mine : c.port = p <;> simp [mine, Ne.symm own]
    have bringup : bringupTags (tornConfig h p).bringup q = bringupTags h.config.bringup q := by
      unfold bringupTags tornConfig
      cases h.config.bringup with
      | none => rfl
      | some r => by_cases mine : r.port = p <;> simp [mine, Ne.symm own]
    refine law.flow (flow.trans told) ?_
    unfold heldTags
    rw [torn_entry_tags entries.indices own, same]
    show _ = entryTags h.table q + waitTags u.waits q + grantTags u.slots q + wakeTags (tornRest h p).wakes q +
      changeTags (tornConfig h p).change q + bringupTags (tornConfig h p).bringup q + _
    rw [wakes, change, bringup, leases, add_assoc (entryTags h.table q), tags slots, add_zero]
    ac_rfl

end Sys2Proof.Safety
end

section
/-! SUPPORT. Entries and replies that leave keep the law of tags, and a proof that every step keeps it (R16, R17, R19, R22 to
R25, R158). -/

namespace Sys2Proof.Safety

open Sys2Proof.Machine

/-! ### Entries that leave -/

/-- The tags of the entries without one of them. -/
theorem entry_tags_without {t : List Entry} (law : (t.map Entry.index).Nodup) {e : Entry} (member : e ∈ t) (p : Port) :
    entryTags t p = entryTags (t.filter (fun z => decide (z.index ∉ [e.index]))) p + entryTags [e] p := by
  have only : t.filter (fun z => !decide (z.index ∉ [e.index])) = [e] := by
    have single : t.filter (fun z => !decide (z.index ∉ [e.index])) = t.filter (fun z => z == e) := by
      refine List.filter_congr fun z inside => ?_
      rw [Bool.eq_iff_iff]
      simp only [Bool.not_eq_true', decide_eq_false_iff_not, not_not, List.mem_singleton, beq_iff_eq]
      exact ⟨fun same => List.inj_on_of_nodup_map law inside member same, fun same => same ▸ rfl⟩
    rw [single, List.filter_beq, List.count_eq_one_of_mem (law.of_map _) member]
    rfl
  rw [entry_tags_split t (fun z => decide (z.index ∉ [e.index])), only]

/-- The hub without the entries of some indices, and with nothing else changed. -/
def withoutEntries (h : Hub) (gone : List Index) : Hub :=
  { h with table := h.table.filter (fun e => decide (e.index ∉ gone)) }

/-- Entries that have left the law are freed. -/
theorem tagged_freed {h : Hub} {p : Port} {gone : List Index} (slots : SlotsLaw h) (law : Tagged (withoutEntries h gone) p) :
    Tagged (h.freeEntries gone) p :=
  law.leases (h := withoutEntries h gone) slots (flow_freed h gone p) (entry_tags_core (freed_core h gone) p)
    (by rw [(work_free h gone).rest]; rfl) (work_free h gone).config

/-- What an entry that has gone leaves of the held tags. -/
theorem held_without {h : Hub} (law : IndexLaw h) {e : Entry} (member : e ∈ h.table) (p : Port) :
    heldTags h p = heldTags (withoutEntries h [e.index]) p + entryTags [e] p := by
  unfold heldTags
  rw [entry_tags_without law member]
  show _ = entryTags (h.table.filter (fun z => decide (z.index ∉ [e.index]))) p + waitTags h.leases.waits p +
    grantTags h.leases.slots p + wakeTags h.rest.wakes p + changeTags h.config.change p + bringupTags h.config.bringup p + _
  ac_rfl

/-! ### Tags that leave with a reply -/

/-- One tag leaves the tag set of a port, and the owner that held it. -/
theorem Tagged.drop {h g : Hub} {p q : Port} {t : Byte} (law : Tagged h q)
    (own : q = p → (g.layer p).tags = (h.layer p).tags.filter (fun u => u != t) ∧ owed h p = owed g p + {t} ∧
      FencesOk (g.layer p))
    (other : q ≠ p → SameWork (h.layer q) (g.layer q) ∧ heldTags g q = heldTags h q) : Tagged g q := by
  by_cases same : q = p
  · subst same
    obtain ⟨tags, loses, agree⟩ := own rfl
    refine law.lose (lost := {t}) (fun u => ?_) loses agree
    rw [tags, List.mem_filter, Multiset.mem_singleton]
    simp
  · obtain ⟨layer, held⟩ := other same
    exact law.same layer held

theorem head_gone_layer (h : Hub) (p q : Port) (tag : Byte) (rest : List PendingReply) :
    (headGone h p tag rest).layer q = if q = p then { (h.layer p).dropTags [tag] with replies := rest } else h.layer q :=
  Hub.onMessages_layer _ _ _ _

/-- The replies of fences agree without the head of the list. -/
theorem fences_ok_tail {m : MessageLayer} {r : PendingReply} {rest : List PendingReply} (head : m.replies = r :: rest)
    (ok : FencesOk m) : (rest.filterMap fenceTag).Nodup ∧ ∀ t ∈ rest.filterMap fenceTag, ∃ f ∈ m.fences, f.tag = t ∧ f.watch = [] := by
  obtain ⟨apart, each⟩ := ok
  have tail : (rest.filterMap fenceTag).Sublist (m.replies.filterMap fenceTag) :=
    head ▸ (List.sublist_cons_self r rest).filterMap _
  exact ⟨apart.sublist tail, fun t listed => each t (tail.subset listed)⟩

/-- A reply that alone held its tag has been placed. -/
theorem tagged_head_gone {h : Hub} {p q : Port} {r : PendingReply} {rest : List PendingReply}
    (head : (h.layer p).replies = r :: rest) (alone : ownTag r = some r.tag) (law : Tagged h q) :
    Tagged (headGone h p r.tag rest) q := by
  refine law.drop (p := p) (t := r.tag) (fun own => ?_) fun other => ?_
  · subst own
    rw [head_gone_layer, if_pos rfl]
    refine ⟨(congrArg MessageLayer.tags (drop_one_tag _ _) :), ?_, fences_ok_tail (m := h.layer q) head law.2.2⟩
    have own : ownTags (h.layer q).replies = {r.tag} + ownTags rest := by
      rw [head, show r :: rest = [r] ++ rest from rfl, own_tags_append]
      simp [ownTags, alone]
    rw [owed_eq, owed_eq, head_gone_layer, if_pos rfl, own]
    show _ = heldTags h q + fenceTags (h.layer q) + ownTags rest + _
    ac_rfl
  · rw [head_gone_layer, if_neg other]
    exact ⟨.refl _, rfl⟩

/-- The reply of an entry has been placed, and the entry is freed (R17). -/
theorem tagged_place_entry {h : Hub} {p q : Port} {tag : Byte} {i : Index} {rest : List PendingReply} (entries : EntryLaw h)
    (slots : SlotsLaw h) (head : (h.layer p).replies = .entry tag i :: rest) (law : Tagged h q) :
    Tagged ((headGone h p tag rest).placed p (.entry tag i)) q := by
  obtain ⟨e, member, rfl, port, own, done⟩ := entries.replies p tag i (by rw [head]; exact List.mem_cons_self)
  have counted : entryTags [e] q = tagOf p q tag := by
    rw [entry_tags_single, tagOf, port, own]
    simp [done_unmarked entries member done]
  have held := held_without entries.indices member q
  rw [counted] at held
  refine tagged_freed (h := (headGone h p tag rest).onMessages p (fun m => { m with completed := rise32 m.completed })) slots ?_
  have layer : (withoutEntries ((headGone h p tag rest).onMessages p (fun m => { m with completed := rise32 m.completed }))
      [e.index]).layer q = if q = p then { (h.layer p).dropTags [tag] with
        replies := rest, completed := rise32 (h.layer p).completed } else h.layer q := by
    refine (Hub.onMessages_layer (headGone h p tag rest) p q _).trans ?_
    rw [head_gone_layer, head_gone_layer, if_pos rfl]
    split <;> rfl
  refine law.drop (p := p) (t := tag) (fun same => ?_) fun other => ?_
  · subst same
    rw [layer, if_pos rfl]
    refine ⟨(congrArg MessageLayer.tags (drop_one_tag _ _) :), ?_, fences_ok_tail (m := h.layer q) head law.2.2⟩
    rw [tagOf, if_pos rfl] at held
    rw [owed_eq, owed_eq, layer, if_pos rfl, held, head]
    show _ = heldTags (withoutEntries h [e.index]) q + fenceTags (h.layer q) + ownTags rest + {tag}
    show _ + _ + _ + ownTags rest = _
    ac_rfl
  · rw [layer, if_neg other]
    rw [tagOf, if_neg (Ne.symm other), add_zero] at held
    exact ⟨.refl _, held.symm⟩

theorem fence_gone_core (p : Port) (t : List Entry) : (t.map (fenceGone p)).map entryCore = t.map entryCore := by
  rw [List.map_map]
  refine List.map_congr_left fun e _ => ?_
  simp only [Function.comp, fenceGone]
  split
  · exact entry_core_promote e _
  · rfl

/-- The reply of a fence has been placed, and the fence leaves the list (R19). -/
theorem tagged_place_fence {h : Hub} {p q : Port} {tag : Byte} {rest : List PendingReply}
    (head : (h.layer p).replies = .fence tag :: rest) (law : ∀ q, Tagged h q) :
    Tagged ((headGone h p tag rest).placed p (.fence tag)) q := by
  have layer : ((headGone h p tag rest).placed p (.fence tag)).layer q = if q = p then { (h.layer p).dropTags [tag] with
        replies := rest, fences := (h.layer p).fences.filter (fun f => f.tag != tag) } else h.layer q := by
    refine (Hub.onMessages_layer (headGone h p tag rest) p q
      (fun m => { m with fences := m.fences.filter (fun f => f.tag != tag) })).trans ?_
    rw [head_gone_layer, head_gone_layer, if_pos rfl]
    split <;> rfl
  have held (q : Port) : heldTags ((headGone h p tag rest).placed p (.fence tag)) q = heldTags h q := by
    unfold heldTags
    rw [show ((headGone h p tag rest).placed p (.fence tag)).table = h.table.map (fenceGone p) from rfl,
      entry_tags_core (fence_gone_core p h.table)]
    rfl
  refine (law q).drop (p := p) (t := tag) (fun own => ?_) fun other => ?_
  · subst own
    have ok := (law q).2.2
    have apart := (law q).fences_apart
    obtain ⟨rest_apart, each⟩ := fences_ok_tail head ok
    obtain ⟨f, member, own, _⟩ := ok.2 tag (by rw [head]; exact List.mem_cons_self)
    have unlisted : tag ∉ rest.filterMap fenceTag := by
      have distinct := ok.1
      rw [head] at distinct
      exact (List.nodup_cons.mp distinct).1
    have left : fenceTags (h.layer q) = ((((h.layer q).fences.filter (fun f => f.tag != tag)).map Fence.tag : List Byte) :
        Multiset Byte) + {tag} := by
      have erased : ((h.layer q).fences.map Fence.tag).filter (fun t => t != tag) = ((h.layer q).fences.map Fence.tag).erase tag :=
        (apart.erase_eq_filter tag).symm
      rw [List.filter_map] at erased
      refine Eq.trans ?_ (congrArg (fun ts : List Byte => (ts : Multiset Byte) + {tag}) erased).symm
      rw [← Multiset.coe_erase, Multiset.add_comm, Multiset.singleton_add,
        Multiset.cons_erase (Multiset.mem_coe.mpr (List.mem_map.mpr ⟨f, member, own⟩))]
      rfl
    rw [layer, if_pos rfl]
    refine ⟨(congrArg MessageLayer.tags (drop_one_tag _ _) :), ?_, rest_apart, fun t listed => ?_⟩
    · rw [owed_eq, owed_eq, held, layer, if_pos rfl, left, head]
      show _ + _ + ownTags rest = heldTags h q + ((((h.layer q).fences.filter (fun f => f.tag != tag)).map Fence.tag : List Byte) :
        Multiset Byte) + ownTags rest + {tag}
      ac_rfl
    · obtain ⟨k, inside, named, empty⟩ := each t listed
      refine ⟨k, List.mem_filter.mpr ⟨inside, ?_⟩, named, empty⟩
      rw [bne_iff_ne, named]
      rintro rfl
      exact unlisted listed
  · rw [layer, if_neg other]
    exact ⟨.refl _, held q⟩

/-! ### The outcome of a burst -/

/-- Without the entry it does not matter what was put in its place. -/
theorem put_without (t : List Entry) {i : Index} {f : Entry} (index : f.index = i) :
    (putAt t i f).filter (fun z => decide (z.index ∉ [i])) = t.filter (fun z => decide (z.index ∉ [i])) := by
  have stays : t.filter ((fun z => decide (z.index ∉ [i])) ∘ fun z => if z.index = i then f else z) =
      t.filter (fun z => decide (z.index ∉ [i])) := by
    refine List.filter_congr fun z _ => ?_
    simp only [Function.comp]
    split
    · next own => simp [index, own]
    · rfl
  rw [putAt, List.filter_map, stays]
  refine (List.map_congr_left fun z inside => if_neg ?_).trans (List.map_id _)
  simpa using (List.mem_filter.mp inside).2

/-- A reply that alone holds its tag is not one with the tag of an entry. -/
theorem Tagged.entry_reply {h : Hub} {e : Entry} (law : Tagged h e.port) (member : e ∈ h.table) (counted : e.aborting ≠ some .torn)
    {r : PendingReply} (pending : r ∈ (h.layer e.port).replies) (same : r.tag = e.tag) : ownTag r = none := by
  by_contra held
  obtain ⟨t, own⟩ := Option.ne_none_iff_exists'.mp held
  have tag : r.tag = t := by cases r <;> cases own <;> rfl
  have apart := law.1
  rw [owed_eq, add_assoc] at apart
  obtain ⟨_, _, disjoint⟩ := Multiset.nodup_add.mp apart
  have entry : e.tag ∈ heldTags h e.port := by
    unfold heldTags
    simp only [add_assoc]
    rw [Multiset.mem_add, entry_tags_eq]
    exact .inl (Multiset.mem_coe.mpr (List.mem_filterMap.mpr ⟨e, member, if_pos ⟨rfl, counted⟩⟩))
  have reply : e.tag ∈ ownTags (h.layer e.port).replies :=
    Multiset.mem_coe.mpr (List.mem_filterMap.mpr ⟨r, pending, own.trans (congrArg some (tag.symm.trans same))⟩)
  exact Multiset.disjoint_left.mp disjoint entry (Multiset.mem_add.mpr (.inr reply))

/-- An entry with an aborting mark leaves, and is answered, or its tag leaves, or it was owed nothing (R22 to R25). -/
theorem tagged_abort_paid {m : Hub} {q : Port} {e f : Entry} {kind : AbortKind} (entries : EntryLaw m) (member : e ∈ m.table)
    (progress : Progress e f) (mark : f.aborting = some kind) (law : ∀ q, Tagged m q) :
    Tagged (withoutEntries (abortPaid m e.index f kind) [e.index]) q := by
  obtain ⟨⟨index, port, tag, _⟩, _, aborting⟩ := progress.fields
  have marked : e.aborting = some kind := aborting.symm.trans mark
  have table : (withoutEntries (abortPaid m e.index f kind) [e.index]).table = (withoutEntries m [e.index]).table := by
    show (abortPaid m e.index f kind).table.filter _ = _
    rw [(abort_paid_table m e.index f kind).1, put_without _ index]
    rfl
  have counted := entry_tags_single e q
  rw [marked] at counted
  have held := held_without entries.indices member q
  have same_held : heldTags (withoutEntries (abortPaid m e.index f kind) [e.index]) q = heldTags (withoutEntries m [e.index]) q := by
    unfold heldTags
    rw [table]
    cases kind <;> rfl
  rw [← same_held] at held
  cases kind with
  | torn =>
    rw [counted, if_neg (by simp), add_zero] at held
    exact (law q).same (.refl _) held.symm
  | silent =>
    have layer : (withoutEntries (abortPaid m e.index f .silent) [e.index]).layer q =
        if q = f.port then { m.layer f.port with tags := (m.layer f.port).tags.filter (fun t => t != f.tag) } else m.layer q :=
      Hub.onMessages_layer (entryPut m e.index f) f.port q _
    refine (law q).drop (p := f.port) (t := f.tag) (fun own => ?_) fun other => ?_
    · subst own
      rw [counted, if_pos ⟨port.symm, by simp⟩] at held
      rw [layer, if_pos rfl]
      refine ⟨rfl, ?_, (law f.port).2.2⟩
      rw [owed_eq, owed_eq, layer, if_pos rfl, held, tag]
      show _ = _ + fenceTags (m.layer f.port) + ownTags (m.layer f.port).replies + {e.tag}
      ac_rfl
    · rw [counted, if_neg fun both => other (both.1.symm.trans port.symm), add_zero] at held
      rw [layer, if_neg other]
      exact ⟨.refl _, held.symm⟩
  | answered =>
    have layer : (withoutEntries (abortPaid m e.index f .answered) [e.index]).layer q =
        if q = f.port then { m.layer f.port with replies := answered (m.layer f.port).replies (f.tag, f.wordsDone) } else m.layer q :=
      Hub.onMessages_layer (entryPut m e.index f) f.port q _
    by_cases own : q = f.port
    · subst own
      rw [counted, if_pos ⟨port.symm, by simp⟩] at held
      have apart := (law f.port).replies_apart entries
      have tagged : Tagged m e.port := law e.port
      have gained := answered_own (x := (f.tag, f.wordsDone)) apart fun r pending same =>
        tagged.entry_reply member (by simp [marked]) (port ▸ pending) (same.trans tag)
      rw [if_pos rfl] at layer
      refine (law f.port).moved (by rw [layer]) ?_ ?_
      · rw [owed_eq, owed_eq, layer, held]
        show _ + fenceTags (m.layer f.port) + ownTags (answered (m.layer f.port).replies (f.tag, f.wordsDone)) = _
        rw [gained, tag]
        ac_rfl
      · rw [layer]
        refine ⟨(answered_apart apart _).sublist (sublist_of_tags (fun r t own => by cases r <;> cases own; rfl) _),
          fun t listed => ?_⟩
        rcases answered_cases (fence_tag_mem.mp listed) with no | ⟨before, _⟩
        · cases no
        · exact (law f.port).2.2.2 t (fence_tag_mem.mpr before)
    · rw [counted, if_neg fun both => own (both.1.symm.trans port.symm), add_zero] at held
      rw [if_neg own] at layer
      exact (law q).same (by rw [layer]; exact .refl _) held.symm

/-- An entry that stays in its place, with its port, its tag and its mark. -/
theorem put_held {m : Hub} (law : IndexLaw m) {e f : Entry} (member : e ∈ m.table) (same : ∀ p, entryTag p f = entryTag p e)
    (q : Port) : heldTags (entryPut m e.index f) q = heldTags m q := by
  have entries : entryTags (entryPut m e.index f).table q = entryTags m.table q :=
    entry_tags_congr (put_map_eq (entryTag q) law member (same q))
  unfold heldTags
  rw [entries]
  rfl

theorem tagged_outcome {m : Hub} {q : Port} {e f : Entry} (entries : EntryLaw m) (slots : SlotsLaw m) (member : e ∈ m.table)
    (progress : Progress e f) (law : ∀ q, Tagged m q) : Tagged (burstOutcome m e.index f) q := by
  obtain mark | ⟨kind, mark⟩ := Option.eq_none_or_eq_some f.aborting
  · have stays (phase : Phase) (p : Port) : entryTag p { f with phase := phase } = entryTag p e := by
      rw [progress]
      rfl
    have put (phase : Phase) : Tagged (entryPut m e.index { f with phase := phase }) q :=
      (law q).same (.refl _) (put_held entries.indices member (stays phase) q)
    rw [outcome_unmarked m e.index mark]
    split
    · have deferred : Flow (m.layer q) (((entryPut m e.index { f with phase := .done }).defer f.port (.entry f.tag e.index)).layer q) 0 := by
        rw [defer_layer]
        split
        · next own =>
          subst own
          exact .more rfl rfl (rs := [.entry f.tag e.index]) rfl rfl
        · exact .refl _
      have flow : Flow (m.layer q) ((((entryPut m e.index { f with phase := .done }).defer f.port
          (.entry f.tag e.index)).release [e.index]).layer q) (0 + 0) := by
        rw [release_layer]
        exact deferred.trans (.unwatch _ _)
      refine (put .done).flow (paid := 0 + 0) flow ?_
      have released : entryTags (((entryPut m e.index { f with phase := .done }).defer f.port
          (.entry f.tag e.index)).release [e.index]).table q = entryTags (entryPut m e.index { f with phase := .done }).table q := by
        rw [Hub.release_table]
        exact entry_tags_core (reorder_core _ _ _) q
      unfold heldTags
      rw [released, Hub.release_leases, add_zero, add_zero]
      rfl
    · split
      · exact put .queued
      · exact put f.phase
  · rw [outcome_aborting m e.index mark]
    refine tagged_freed (h := abortPaid m e.index f kind) ?_ (tagged_abort_paid entries member progress mark law)
    cases kind <;> exact slots

theorem tagged_completes {h g : Hub} {q : Port} (entries : EntryLaw h) (slots : SlotsLaw h) (completes : Completes h g)
    (law : ∀ q, Tagged h q) : Tagged g q := by
  obtain ⟨x, e, f, d, c, b, burst, found, progress, _, rfl⟩ := completes
  obtain ⟨member, _⟩ := (entry_eq_some_iff entries.indices).mp found
  exact tagged_outcome (m := { h with dram := d, check := c, scheduler := { h.scheduler with banks := b } })
    (entry_law_same entries rfl rfl (.of_messages rfl)) slots member progress law

end Sys2Proof.Safety
end

section
/-! SUPPORT. A proof that every step keeps the entries, the bring-up record, the burst in flight and the tags in agreement. -/

namespace Sys2Proof.Safety

open Sys2Proof.Machine

/-! ### Requests that join -/

/-- A port that asks for the memory holds the same tags. -/
theorem want_memory_held (h : Hub) (p q : Port) : heldTags (h.wantMemory p) q = heldTags h q ∧
    (h.wantMemory p).layer q = h.layer q := by
  obtain ⟨c, r, u, same, _, wakes, _⟩ := want_memory_frame h p
  rw [same]
  refine ⟨?_, rfl⟩
  unfold heldTags
  rw [← wakes]

theorem tagged_admitted {h : Hub} {p q : Port} {kind : Access} {tag : Byte} {words reserved addr a : Nat} {i : Index}
    (data : List Word) (passes : h.admission p kind tag words reserved addr = .ok (a, i)) (law : Tagged h q) :
    Tagged (({ h with table := h.table ++ [admitted h p kind tag words a i data] }.addTag p tag).wantMemory p) q := by
  obtain ⟨held, layer⟩ :=
    want_memory_held ({ h with table := h.table ++ [admitted h p kind tag words a i data] }.addTag p tag) p q
  obtain ⟨unmarked, own, _⟩ := admitted_fields h p kind tag words a i data
  refine law.added (admission_fresh passes).1 layer ?_
  have joins : entryTags [admitted h p kind tag words a i data] q = tagOf p q tag := by
    rw [entry_tags_single, admitted_port, own, unmarked, tagOf]
    simp
  rw [held]
  unfold heldTags
  show entryTags (h.table ++ [admitted h p kind tag words a i data]) q + waitTags h.leases.waits q + grantTags h.leases.slots q +
    wakeTags h.rest.wakes q + changeTags h.config.change q + bringupTags h.config.bringup q = _
  rw [entry_tags_append, joins]
  ac_rfl

theorem tagged_fence {h : Hub} {p q : Port} {tag : Byte} {watch : List Index} (fresh : h.tagInUse p tag = false)
    (law : Tagged h q) : Tagged ((h.onMessages p (fun m => { m with fences := m.fences ++ [⟨tag, watch⟩] })).addTag p tag) q := by
  have layer : ((h.onMessages p (fun m => { m with fences := m.fences ++ [⟨tag, watch⟩] })).addTag p tag).layer q =
      if q = p then { h.layer p with
        fences := (h.layer p).fences ++ [⟨tag, watch⟩], tags := (h.layer p).tags ++ [tag] } else h.layer q := by
    rw [add_tag_layer, Hub.onMessages_layer, Hub.onMessages_layer, if_pos rfl]
    split <;> rfl
  by_cases own : q = p
  · subst own
    rw [if_pos rfl] at layer
    refine law.gain (t := tag) (by simpa [Hub.tagInUse] using fresh) (by rw [layer]) ?_ ?_
    · rw [owed_eq, owed_eq, layer]
      show heldTags h q + (((h.layer q).fences ++ [(⟨tag, watch⟩ : Fence)]).map Fence.tag : List Byte) + _ = _
      rw [List.map_append, ← Multiset.coe_add]
      show _ + (fenceTags (h.layer q) + {tag}) + ownTags (h.layer q).replies = _
      ac_rfl
    · rw [layer]
      refine ⟨law.2.2.1, fun t listed => ?_⟩
      obtain ⟨f, member, rest⟩ := law.2.2.2 t listed
      exact ⟨f, List.mem_append_left _ member, rest⟩
  · rw [if_neg own] at layer
    exact law.same (by rw [layer]; exact .refl _) rfl

theorem tagged_wait {h : Hub} {q : Port} {w : Waiting} (fresh : h.tagInUse w.port w.tag = false) (law : Tagged h q) :
    Tagged ({ h with leases := { h.leases with waits := h.leases.waits ++ [w] } }.addTag w.port w.tag) q := by
  refine law.added fresh rfl ?_
  unfold heldTags
  show _ + waitTags (h.leases.waits ++ [w]) q + _ + _ + _ + _ = _
  rw [wait_tags_append, wait_tags_single]
  show entryTags h.table q + _ + grantTags h.leases.slots q + wakeTags h.rest.wakes q + changeTags h.config.change q +
    bringupTags h.config.bringup q = _
  ac_rfl

theorem tagged_wake {h : Hub} {p q : Port} {tag : Byte} (fresh : h.tagInUse p tag = false) (law : Tagged h q) :
    Tagged { (h.wantMemory p).addTag p tag with
      rest := { (h.wantMemory p).rest with wakes := h.rest.wakes ++ [(p, tag)] } } q := by
  obtain ⟨c, r, u, same, _⟩ := want_memory_frame h p
  have joins : wakeTags (h.rest.wakes ++ [(p, tag)]) q = wakeTags h.rest.wakes q + tagOf p q tag := by
    rw [wakeTags, List.filter_append, List.map_append, ← Multiset.coe_add, tagOf]
    by_cases own : p = q
    · simp [wakeTags, own]
    · simp [wakeTags, own]
  refine law.added fresh (by rw [same]; rfl) ?_
  rw [same]
  unfold heldTags
  show entryTags h.table q + waitTags h.leases.waits q + grantTags h.leases.slots q +
    wakeTags (h.rest.wakes ++ [(p, tag)]) q + changeTags h.config.change q + bringupTags h.config.bringup q = _
  rw [joins]
  ac_rfl

/-- A change becomes pending. -/
theorem tagged_change {h : Hub} {p q : Port} {tag : Byte} (kind : ChangeKind) (fresh : h.tagInUse p tag = false)
    (unchanged : h.config.change = none) (law : Tagged h q) : Tagged (changeTaken h kind p tag) q := by
  have joins : changeTags (some ⟨kind, p, tag, false⟩) q = tagOf p q tag := by
    unfold changeTags tagOf
    by_cases own : p = q <;> simp [own]
  refine law.added fresh rfl ?_
  unfold heldTags
  rw [unchanged]
  show entryTags h.table q + waitTags h.leases.waits q + grantTags h.leases.slots q + wakeTags h.rest.wakes q +
    changeTags (some ⟨kind, p, tag, false⟩) q + bringupTags h.config.bringup q = _ + _ + _ + _ + 0 + _ + _
  rw [joins, add_zero]
  ac_rfl

/-! ### Moves that leave the tags -/

/-- A bring-up record moves on, and stays that of its commit. -/
theorem tagged_record {h g : Hub} {q : Port} (law : Tagged h q) (messages : g.messages = h.messages) (table : g.table = h.table)
    (leases : g.leases = h.leases) (rest : g.rest = h.rest) (change : g.config.change = h.config.change)
    (bringup : bringupTags g.config.bringup q = bringupTags h.config.bringup q) : Tagged g q := by
  refine law.same (by rw [Hub.layer, Hub.layer, messages]; exact .refl _) ?_
  unfold heldTags
  rw [table, leases, rest, change, bringup]

theorem bringup_tags_map (b : Option Bringup) (f : Bringup → Bringup)
    (same : ∀ r, (f r).port = r.port ∧ (f r).tag = r.tag ∧ (f r).torn = r.torn) (q : Port) :
    bringupTags (b.map f) q = bringupTags b q := by
  cases b with
  | none => rfl
  | some r =>
    obtain ⟨port, tag, torn⟩ := same r
    unfold bringupTags
    simp only [Option.map_some, port, tag, torn]

theorem tagged_renew {h : Hub} {q : Port} {x : LeaseSlot} {l : Lease} {expiry later : Nat} (slots : SlotsLaw h)
    (member : x ∈ h.leases.slots) (held : x.lease = some l) (granted : l.phase = .granted expiry) (law : Tagged h q) :
    Tagged { h with leases := h.leases.onSlot x.id (fun s =>
      { s with lease := s.lease.map (fun l => { l with phase := .granted later }) }) } q := by
  have replaced := replace_slot (grantingTag q) (slots_apart slots) member (fun s =>
    { s with lease := s.lease.map (fun l => { l with phase := .granted later }) })
  rw [granting_tag_granted held granted, granting_tag_granted (congrArg (Option.map _) held) rfl] at replaced
  refine law.same (.refl _) ?_
  exact congrArg (fun grants => entryTags h.table q + waitTags h.leases.waits q + grants + wakeTags h.rest.wakes q +
    changeTags h.config.change q + bringupTags h.config.bringup q) (add_right_cancel replaced).symm

theorem tagged_start {h : Hub} {q : Port} (e : Entry) (law : Tagged h q) : Tagged (h.startBurst e) q := by
  have each : List.Forall₂ (Starts e.index) h.table (h.startBurst e).table := start_burst_table h e
  have entries : (h.startBurst e).table.map (entryTag q) = h.table.map (entryTag q) := by
    generalize h.table = t at each
    generalize (h.startBurst e).table = t' at each
    induction each with
    | nil => rfl
    | @cons a b _ _ starts _ ih =>
      obtain ⟨⟨_, port, tag, _⟩, mark⟩ := starts.fields
      rw [List.map_cons, List.map_cons, ih, entryTag, entryTag, port, tag, mark]
  refine law.same (.refl _) ?_
  unfold heldTags
  rw [entry_tags_congr entries]
  rfl

/-! ### The moves -/

theorem tag_moves {c : Instr} {h g : Hub} (entries : EntryLaw h) (record : RecordInside h) (slots : SlotsLaw h)
    (law : ∀ q, Tagged h q) (act : Act c h g) (q : Port) : Tagged g q := by
  cases act with
  | admits data passes => exact tagged_admitted data passes (law q)
  | fence fresh room some => exact tagged_fence fresh (law q)
  | wait fresh room blocked => exact tagged_wait fresh (law q)
  | take fresh free unblocked => exact tagged_take slots fresh free (law q)
  | leave slot held granted => exact tagged_leave slots slot held granted (law q)
  | renew later slot held granted => exact tagged_renew slots slot held granted (law q)
  | @want p => exact (law q).same (by rw [(want_memory_held h p q).2]; exact .refl _) (want_memory_held h p q).1
  | wake fresh => exact tagged_wake fresh (law q)
  | @commit p tag force fresh outside unchanged passes =>
    refine tagged_change _ ?_ ((congrArg ConfigUnit.change (work_commit_aborts _ _ _).config :).trans unchanged)
      (tagged_commit_aborts entries slots (law q) _ _)
    rw [Hub.tagInUse, commit_aborts_tags]
    exact fresh
  | @hubReset p tag fresh outside unchanged =>
    have absent : tag ∉ (h.layer p).tags := by simpa [Hub.tagInUse] using fresh
    refine tagged_change _ ?_ ((congrArg ConfigUnit.change (work_discard h).config :).trans unchanged) (tagged_discard entries (law q))
    rw [Hub.tagInUse, discard_work_layer]
    exact Bool.eq_false_iff.mpr fun listed => absent (List.mem_filter.mp (List.contains_iff_mem.mp listed)).1
  | @placeReply p r rest reply head owner =>
    cases r with
    | entry tag i => exact tagged_place_entry entries slots head (law q)
    | fence tag => exact tagged_place_fence head law
    | _ => exact tagged_head_gone head rfl (law q)
  | @teardown p command => exact tagged_teardown entries slots p q (law q)
  | @startBurst e granted => exact tagged_start e (law q)
  | completeRead command flying kind served => exact tagged_completes entries slots (completes_of_read flying served) law
  | completeWrite command flying kind served => exact tagged_completes entries slots (completes_of_write flying served) law
  | allClosed flying =>
    exact tagged_record (law q) rfl rfl rfl rfl rfl (bringup_tags_map h.config.bringup (fun r => { r with phase := .mode })
      (fun _ => ⟨rfl, rfl, rfl⟩) q)
  | modeLoaded flying =>
    exact tagged_record (law q) rfl rfl rfl rfl rfl (bringup_tags_map h.config.bringup
      (fun r => { r with phase := .burst, upkeepsLeft := h.config.committed.bringupUpkeeps }) (fun _ => ⟨rfl, rfl, rfl⟩) q)
  | @leavingEnds t flying outside leaving unchanged =>
    rw [become_serving_eq]
    exact tagged_served (h := upkeepPaid h t) (law q)
  | bringupUpkeep flying inside => exact tagged_record (law q) rfl rfl rfl rfl rfl (by rw [inside]; rfl)
  | @bringupEnds t r flying inside => exact tagged_end_bringup (h := upkeepPaid h t) inside (law q)
  | waitEnds found => exact tagged_wait_ends slots found law q
  | grantingEnds found => exact tagged_granting_ends slots found (law q)
  | settleEnds inside phase => exact tagged_record (law q) rfl rfl rfl rfl rfl (by rw [inside]; rfl)
  | @copy force geometry p tag torn command pending idle out =>
    have config := (work_commit_aborts h true geometry).config
    have absent : h.config.bringup = none := by
      by_contra present
      rw [(record present).2] at pending
      cases pending
    exact tagged_copied ((congrArg ConfigUnit.change config :).trans pending) ((congrArg ConfigUnit.bringup config :).trans absent)
      (tagged_commit_aborts entries slots (law q) true geometry)
  | reset command pending idle out layers => exact tagged_reset entries pending idle layers (law q)
  | _ => exact (law q).same (.refl _) rfl

/-! ### The end of an event -/

theorem tagged_quiet {h g : Hub} (quiet : Quiet h g) {q : Port} (law : Tagged h q) : Tagged g q :=
  law.same (quiet.layers q) (by rw [quiet.frame]; rfl)

/-- What an event's end looks at besides the deferred WAKEs. -/
theorem settle_held (h : Hub) (q : Port) : heldTags h.settle q = heldTags h.evaluateRest q := by
  obtain ⟨⟨_, table, _, rest⟩, _, config, _⟩ := settle_parts h
  have leases : h.settle.leases = h.evaluateRest.leases := rfl
  unfold heldTags
  rw [table, rest, config, leases]

theorem tagged_settle {h : Hub} {q : Port} (law : Tagged h q) : Tagged h.settle q := by
  have evaluated : Tagged h.evaluateRest q := by
    rcases evaluate_cases h with ⟨_, _, same⟩ | ⟨_, _, same⟩ | ⟨_, same⟩
    · rw [same]
      exact law.same (.refl _) rfl
    · rw [same]
      exact law.same (.refl _) rfl
    · rw [same]
      exact (tagged_served law).same (.refl _) rfl
  exact evaluated.same (.refl _) (settle_held h q)

theorem power_up_tagged (n : Nat) (q : Port) : Tagged (Hub.powerUp n) q :=
  (tag_law_iff (power_up_entry_law n)).mp (power_up_tag_law n) q

theorem tags_kept : KeptByEveryStep (fun h => EntryLaw h ∧ BringupLaw h ∧ SlotsLaw h ∧ ∀ q, Tagged h q) :=
  kept_by_moves (middle := fun h => EntryLaw h ∧ RecordInside h ∧ SlotsLaw h ∧ ∀ q, Tagged h q)
    (fun quiet law => ⟨entry_law_quiet quiet law.1, bringup_law_quiet quiet law.2.1, quiet_slots_law quiet law.2.2.1,
      fun q => tagged_quiet quiet (law.2.2.2 q)⟩)
    (fun law act => ⟨entry_law_moves law.1 act, (act.record_move law.2.1.1).inside law.2.1.2,
      act.lease_move.slots_law law.2.2.1, tag_moves law.1 law.2.1.2 law.2.2.1 law.2.2.2 act⟩)
    (fun quiet law => ⟨entry_law_quiet quiet law.1, record_inside_quiet quiet law.2.1, quiet_slots_law quiet law.2.2.1,
      fun q => tagged_quiet quiet (law.2.2.2 q)⟩)
    (fun law => ⟨entry_law_settle law.1, record_inside_settle law.2.1, settle_slots_law law.2.2.1,
      fun q => tagged_settle (law.2.2.2 q)⟩)
    (fun n => ⟨power_up_entry_law n, power_up_bringup_law n, power_up_slots_law n, power_up_tagged n⟩)
    fun n => ⟨entry_law_same (power_up_entry_law n) rfl rfl (.of_messages rfl), power_up_bringup_law n, power_up_slots_law n,
      power_up_tagged n⟩

theorem tag_law_kept : KeptByEveryStep (fun h => EntryLaw h ∧ BringupLaw h ∧ SlotsLaw h ∧ TagLaw h) := by
  rintro s t ⟨entries, bringup, slots, law⟩ steps
  obtain ⟨entries', bringup', slots', law'⟩ := tags_kept s t ⟨entries, bringup, slots, (tag_law_iff entries).mp law⟩ steps
  exact ⟨entries', bringup', slots', (tag_law_iff entries').mpr law'⟩

/-- Settles O58, law by law. -/
theorem stepsKeepTheEntriesInAgreement : Obligations.StepsKeepTheEntriesInAgreement :=
  ⟨entry_law_kept, bringup_law_kept, burst_law_kept, tag_law_kept⟩

end Sys2Proof.Safety
end
